-- ==== Sys2Proof/Word.lean ====
section
/-!
DEFINITION. Words and bytes of the GK-512: little-endian values (R4), signed readings, fields of a RECORD.
An object's value is kept as the number its encoding spells, least significant byte first (R4, R56), so a
RECORD, a STR and a BLOB are numbers too and a field of one is a range of its bytes.
-/
namespace Sys2Proof

/-- One byte as it travels (R4). -/
abbrev Byte := BitVec 8

/-- The signed reading of the low `w` bits of `v`. -/
def sx (w v : Nat) : Int :=
  if v % 2 ^ w < 2 ^ (w - 1) then ((v % 2 ^ w : Nat) : Int) else ((v % 2 ^ w : Nat) : Int) - 2 ^ w

/-- The `w`-bit two's complement of `i`. -/
def ux (w : Nat) (i : Int) : Nat := (i % (2 ^ w : Int)).toNat

/-- `size` bytes at byte offset `off` of the value `v`. -/
def fld (v off size : Nat) : Nat := (v / 2 ^ (8 * off)) % 2 ^ (8 * size)

/-- `v` with the `size` bytes at `off` replaced by `x`. -/
def setFld (v off size x : Nat) : Nat :=
  v - fld v off size * 2 ^ (8 * off) + (x % 2 ^ (8 * size)) * 2 ^ (8 * off)

/-- `n` bits of `v` from bit `lo` up. -/
def bitf (v lo n : Nat) : Nat := (v / 2 ^ lo) % 2 ^ n

/-- Bit `k` of `v`. -/
def bit (v k : Nat) : Bool := v.testBit k

/-- `v` with bit `k` set or cleared. -/
def setBit (v k : Nat) (b : Bool) : Nat :=
  if b then v ||| 2 ^ k else v - (if v.testBit k then 2 ^ k else 0)

/-- Addition that stops at the largest `w`-bit value. -/
def satAdd (w a b : Nat) : Nat := min (a + b) (2 ^ w - 1)

/-- Addition that wraps at `w` bits. -/
def wrapAdd (w a b : Nat) : Nat := (a + b) % 2 ^ w

/-- Division rounded up; 0 when the divisor is 0. -/
def ceilDiv (a b : Nat) : Nat := if b = 0 then 0 else (a + b - 1) / b

/-- `n` bytes of `v`, least significant first (R4). -/
def leBytes : Nat → Nat → List Byte
  | 0, _ => []
  | n + 1, v => BitVec.ofNat 8 (v % 256) :: leBytes n (v / 256)

/-- The number that a list of bytes spells, least significant first (R4). -/
def ofLE : List Byte → Nat
  | [] => 0
  | b :: bs => b.toNat + 256 * ofLE bs

/-- The number that a list of bytes spells, most significant first. -/
def ofBE (bs : List Byte) : Nat := bs.foldl (fun a b => a * 256 + b.toNat) 0

/-- A level or current code: the low 24 bits, read back with bit 23 copied into bits 31 to 24 (R5). -/
def code24 (v : Nat) : Nat := ux 32 (sx 24 v)

/-- Division of an integer rounded toward zero. -/
def tdiv (a : Int) (b : Nat) : Int := a.tdiv (b : Int)

/-- The binary32 of the positive number `n / d` (R56), rounded to nearest, ties to even; 0 where it is below the least
normal number, infinity above the greatest. -/
def f32 (n d : Nat) : Nat :=
  if n = 0 ∨ d = 0 then 0
  else
    let e : Int := (Nat.log2 n : Int) - (Nat.log2 d : Int)
    let scale (k : Int) : Nat × Nat := if 0 ≤ k then (n, d * 2 ^ k.toNat) else (n * 2 ^ (-k).toNat, d)
    let e1 : Int := if (scale e).1 < (scale e).2 then e - 1 else e
    let m := scale (e1 - 23)
    let q := m.1 / m.2
    let r := m.1 % m.2
    let up := decide (m.2 < 2 * r) || (2 * r == m.2 && q % 2 == 1)
    let q1 := if up then q + 1 else q
    let q2 := if q1 = 2 ^ 24 then 2 ^ 23 else q1
    let e2 : Int := if q1 = 2 ^ 24 then e1 + 1 else e1
    if e2 < -126 then 0
    else if 127 < e2 then 0x7F800000
    else (e2 + 127).toNat * 2 ^ 23 + (q2 - 2 ^ 23)

end Sys2Proof
end

