-- ==== Sys2Proof/Syntax.lean ====
section
/-!
DEFINITION. The commands: one constructor for each row of spec/opcode_table.json, with the row's operands.
A unit number is a `Fin` of the count the spec gives the unit (00_scope.md, Names and numbering).
-/
namespace Sys2Proof

abbrev Chan := Fin 512
abbrev Quad := Fin 128
abbrev Cluster := Fin 32
abbrev Tile := Fin 8
abbrev Site := Fin 128
abbrev Dps := Fin 64
abbrev SubCh := Fin 32
abbrev MemCh := Fin 16
abbrev Head := Fin 2
abbrev Half := Fin 2
abbrev Line := Fin 32
abbrev Sel := Fin 4
/-- A 32-bit word of cluster SRAM: 262,144 of each cluster. -/
abbrev SramWord := Fin 8388608
abbrev QueueNo := Fin 262144

/-- Where a dictionary access comes from (R57, R61: 0 ring, 1 SSP). -/
inductive Port where
  | ring
  | ssp
deriving DecidableEq, Repr

/-- The two ring ports (R44). -/
inductive Link where
  | up
  | down
deriving DecidableEq, Repr

/-- A datagram as it passes (02, Datagram layout). The mode, flags and length are the whole bytes, reserved bits included. -/
structure Datagram where
  typ : Byte
  tag : Byte
  addr : BitVec 16
  mode : Byte
  flags : Byte
  len : BitVec 16
  target : BitVec 64
  data : List Byte
  wc : BitVec 16
  sig : BitVec 16
deriving DecidableEq, Repr

/-- The fields of a Veruisk instruction word other than its opcode (R123), and whether the word is poisoned (R153). -/
structure VWord where
  mode : Bool
  res : Bool
  ssm : Bool
  pred : Bool
  rsv : BitVec 4
  a : BitVec 8
  b : BitVec 8
  n : BitVec 32
  t : BitVec 32
  x : BitVec 32
  poisoned : Bool
deriving DecidableEq, Repr

/-- Which window monitor (R87, R227). -/
inductive MonId where
  | chan (n : Chan)
  | dpsV (d : Dps)
  | dpsI (d : Dps)
deriving DecidableEq, Repr

/-- A change of a pin's voltage, from one value in nV to another, at a place within the nanosecond in half picoseconds (R107,
R110). -/
structure PinEdge where
  chan : Chan
  before : Int
  after : Int
  fine : Fin 2000
deriving DecidableEq, Repr

/-- What a channel's comparators see at the strobes of a vector (R96): the pin's voltage in nV at strobe 1 and at strobe 2, or in a
window its pieces, each with its width in quarter picoseconds, from strobe 1 on. -/
structure Seen where
  chan : Chan
  volts : List (Nat × Int)
deriving DecidableEq, Repr

/-- What a window monitor takes at a tick (R87, R90): the quantity it watches, and the comparators that answer wrongly in a
self-check. -/
structure MonSample where
  value : Int
  lowBad : Bool
  highBad : Bool
deriving DecidableEq, Repr

def MonSample.zero : MonSample := ⟨0, false, false⟩

/-- One input's record of a sample set (R235, R239). -/
structure Sample where
  valid : Bool
  value : Int
  clamp : Bool
  tmuStatus : BitVec 8
deriving DecidableEq, Repr

/-- What is ready for a slot (R252, R256, R263, R268): whether the owner of a RASTER slot has a request that no slot has served
yet (of STREAM and CAPTURE owners the model keeps the requests itself), the best-effort requesters that have one (bit r for
requester r; of requester 5, the streams, the model keeps the requests itself), whether the best-effort burst is a write, the global
address of the burst issued if it opens a row, and the devices of the subchannel (bit by rank and device) whose MR4
read in a maintenance slot reports a temperature beyond the range. -/
structure SlotUse where
  ownerReady : Bool
  ready : BitVec 8
  isWrite : Bool
  opens : Option (BitVec 39)
  hot : BitVec 6
deriving DecidableEq, Repr

/-- An upset of a queue context (R285): its words fail parity, or the second copy of W (0), of Rd (1) or of the last-EOP position
(2) takes another value. -/
inductive QueueUpset where
  | parity
  | copy (which : Fin 3) (v : BitVec 64)
deriving DecidableEq, Repr

/-- What the SEC-DED check of a read found (R260). -/
inductive Ecc where
  | clean
  | corrected
  | uncorrectable
deriving DecidableEq, Repr

/-- A word of a control store that came out of a load as another value: of the broadcast (false) or of the one reload (true)
(R150). -/
structure LoadFault where
  quad : Quad
  second : Bool
  word : Fin 4096
  value : BitVec 96
deriving DecidableEq, Repr

/-- What IMAGE_READ_DONE reports of the slot in hand (R332, R338): that `n` bytes of the boot frame on the port have been read, or
that the slot has been read whole and is to be authenticated. -/
inductive SlotRead where
  | part (n : BitVec 16)
  | whole
deriving DecidableEq, Repr

/-- Three copies of the Primrose record, as one reader sees them (R341, R342). -/
structure Copies where
  c0 : BitVec 32
  c1 : BitVec 32
  c2 : BitVec 32
deriving DecidableEq, Repr

/-- An SSP frame (R351, R352): whether SSP_CLK is high as the select falls, and what follows the opcode byte. -/
structure SspFrame where
  clk : Bool
  ix : BitVec 16
  sub : Byte
  last : Byte
  len : BitVec 16
  hcrc : Byte
  data : List Byte
  dcrc : Byte
deriving DecidableEq, Repr

/-- Why a frame is discarded before the port can serve it (R352, R354): SSP_CS_N rises inside a byte, or between two before the
frame is complete, SSP_CLK having been high or low at its select; or a whole header comes with an opcode that is none of the
five. -/
inductive SspCut where
  | insideByte (clk : Bool)
  | short (clk : Bool)
  | opcode (op : Byte) (f : SspFrame)
deriving DecidableEq, Repr

/-- The coefficients of a calibration unit (R356): a channel's drive and compare deskew in quarter picoseconds; the offset of the
tile's timing reference, or the lower edges of a channel's TMU bins, the 2,000 of NATIVE before the 500 of COMPAT, in fs; voltage
corrections in nV, of a channel first the 17 points of VIH, VIL, VTT, VOH, VOL, VPM, M0 and M1, of a DPS channel first its force
offset and what its force gain corrects at 7 V; current gains in ppm. The order is the model's (DESIGN CHOICE, log entry 43). -/
structure Coefs where
  drive : Int
  compare : Int
  edges : List Int
  volts : List Int
  gains : List Int
deriving DecidableEq, Repr

/-- What one run found for a unit (R356, R364): its coefficients, or no usable result. -/
structure CalUnit where
  unit : Fin 137
  coefs : Option Coefs
deriving DecidableEq, Repr

/-- What CALIBRATION_RUN_DONE reports (R358, R362 to R364): that `n` units of the present run have finished; the readings of REFV and
ZCAL at the start of its LEVEL part, in the units of 0x1400.07 and .08; the DPS channels of the tile whose measurement path is
switched from now on; or that the run is over, and what it found. -/
inductive CalReport where
  | finished (n : BitVec 8)
  | references (refv zcal : BitVec 32)
  | path (dps : BitVec 8)
  | run (units : List CalUnit)
deriving DecidableEq, Repr

/-- What one thermal sensor's conversion gave (R374, R375): the reading in 1/16 degree, and whether the two chopping phases of the
converter gave identical raw codes. -/
structure Conversion where
  reading : Int
  same : Bool
deriving DecidableEq, Repr

/-- The commands: the rows of spec/opcode_table.json in the table's order. -/
inductive Instr where
  | lemileFrame (l : Link) (bytes : List Byte)
  | frameWritesApply
  | drd (d : Datagram)
  | dwr (d : Datagram)
  | drr (d : Datagram)
  | drw (d : Datagram)
  | objectWrite (p : Port) (ix : BitVec 16) (sub : Byte) (data : List Byte)
  | bwr (l : Link) (d : Datagram)
  | bulkWriteComplete
  | brq (d : Datagram)
  | bulkReadFetchDone (upset : List SramWord)
  | brd (d : Datagram)
  | evt (d : Datagram)
  | sync (d : Datagram) (residence : Nat)
  | syncAbsenceTimeout
  | trd (d : Datagram)
  | pdelayMeasurement (delay : BitVec 32)
  | ptpFrame (sync : Bool) (correction : BitVec 64) (residence : Nat)
  | linkUp (l : Link)
  | linkDown (l : Link)
  | cyclicWatchdogExpiry
  | requestedRingState (p : Port) (v : Byte)
  | ringOperational
  | roleRequest (p : Port) (v : Byte)
  | roleResponse (p : Port) (data : List Byte)
  | lockoutEnd (p : Port)
  | bulkLoadTotal (p : Port) (v : BitVec 64)
  | siteCommit (p : Port) (s : Site) (v : Byte)
  | siteCommitProcess
  | siteStart (p : Port) (sites : BitVec 128) (time : BitVec 64)
  | triggerLineStart (line : Line)
  | startTimeReached (s : Site)
  | refclkLoss
  | refclkReturn
  | pllRelock (t : Tile)
  | levelCommit (p : Port) (q : Quad) (v : Byte)
  | broadcastStrobeNow (p : Port) (v : Byte)
  | monitorTick (q : Quad) (samples : List MonSample)
  | monitorSelfCheckRequest (p : Port) (n : Chan) (v : Byte)
  | selfCheckComplete (m : MonId)
  | ppmuSample (n : Chan) (value : Int)
  | ppmuClampEngage (n : Chan) (which : Fin 3)
  | ppmuClampRelease (n : Chan) (which : Fin 3)
  | timingCommit (p : Port) (q : Quad) (v : Byte)
  | timingCommitApply (q : Quad)
  | tmuArm (p : Port) (n : Chan)
  | tmuDisarm (p : Port) (n : Chan)
  | tmuReady (n : Chan)
  | tmuStartEdge (n : Chan) (edge : PinEdge)
  | tmuStopEdge (n : Chan) (edge : PinEdge)
  | tmuGateClose (n : Chan)
  | tmuTimeout (n : Chan)
  | tmuOverrange (n : Chan)
  | tmuResult (n : Chan)
  | vec (s : Site) (w : VWord)
  | rpt (s : Site) (w : VWord)
  | loop (s : Site) (w : VWord)
  | endl (s : Site) (w : VWord)
  | call (s : Site) (w : VWord)
  | ret (s : Site) (w : VWord)
  | jmp (s : Site) (w : VWord)
  | jmpArm (s : Site) (w : VWord)
  | jmpDisarm (s : Site) (w : VWord)
  | bif (s : Site) (w : VWord)
  | matchBlock (s : Site) (w : VWord)
  | tset (s : Site) (w : VWord)
  | lset (s : Site) (w : VWord)
  | wait (s : Site) (w : VWord)
  | waitConditionMet (s : Site)
  | waitTimeout (s : Site)
  | signalPulse (s : Site) (w : VWord)
  | signalSet (s : Site) (w : VWord)
  | signalClear (s : Site) (w : VWord)
  | captArm (s : Site) (w : VWord)
  | captAcq (s : Site) (w : VWord)
  | captFwclr (s : Site) (w : VWord)
  | captLog (s : Site) (w : VWord)
  | halt (s : Site) (w : VWord)
  | illegalOpcode (s : Site) (opc : BitVec 8) (w : VWord)
  | vectorCommit (s : Site)
  | stallResume (s : Site)
  | compareResult (s : Site) (seen : List Seen)
  | failLogEntryClose (s : Site)
  | eventJumpRequest (s : Site)
  | eventJump (s : Site)
  | preloadComplete (s : Site)
  | preloadAllowanceExpiry (s : Site)
  | streamRead (q : Quad) (poisoned : Bool)
  | sectionDecode (q : Quad)
  | captureCopyDone (s : Site)
  | patternEnd (s : Site)
  | controlStoreParityError (q : Quad)
  | backgroundSweep (q : Quad) (parityError : Bool)
  | controlStoreReloadDone (q : Quad) (faults : List LoadFault)
  | stepComplete (s : Site)
  | resultRecordWrite (s : Site)
  | admissionRequest (s : Site)
  | admissionRetry (s : Site)
  | admissionWaitExpiry (s : Site)
  | runPattern (s : Site)
  | paramMeasure (s : Site)
  | measurementDone (s : Site)
  | dpsSet (s : Site)
  | settle (s : Site)
  | settleDone (s : Site)
  | branch (s : Site)
  | bin (s : Site)
  | datalog (s : Site)
  | calibratePoint (s : Site)
  | endStep (s : Site)
  | abort (p : Port) (s : Site) (v : Byte)
  | stepTimeout (s : Site)
  | firstFailRearm (p : Port) (s : Site) (v : Byte)
  | dpsCommit (p : Port) (d : Dps) (v : Byte)
  | dpsUpdateTick (railW railE : Int) (charge : List Int)
  | gangCommit (p : Port) (t : Tile) (v : Byte)
  | dpsSample (d : Dps) (microvolt current : Int)
  | dpsClampEngage (d : Dps)
  | senseOpen (d : Dps)
  | headroom (d : Dps)
  | dpsMonitorTick (d : Dps) (current : Bool) (sample : MonSample)
  | dpsSelfCheckRequest (p : Port) (d : Dps) (v : Byte)
  | chargeClear (p : Port) (d : Dps) (v : Byte)
  | shutdownRankAdvance
  | acquisitionCommit (p : Port) (c : Cluster) (v : Byte)
  | acquisitionArm (p : Port) (c : Cluster)
  | acquisitionDisarm (p : Port) (c : Cluster)
  | hostTrigger (p : Port) (c : Cluster) (v : Byte)
  | sampleSet (c : Cluster)
  | autoTimeout (c : Cluster)
  | acqReady (c : Cluster)
  | captureComplete (c : Cluster)
  | memoryCommit (p : Port) (v : Byte)
  | train (p : Port)
  | retrain (p : Port)
  | release (p : Port)
  | trainingStepDone (k : MemCh) (ok : Bool)
  | tablePeriodBoundary
  | slot (j : SubCh) (use : SlotUse)
  | disturbanceWindowEnd (j : SubCh)
  | sdramReadData (j : SubCh) (addr : BitVec 39) (ecc : Ecc) (scrub : Bool)
  | alertN (j : SubCh)
  | replay (j : SubCh) (failed : Nat)
  | queueCommit (p : Port) (v : Byte)
  | creditGrant (p : Port) (n : BitVec 32)
  | dequeue (p : Port) (n : BitVec 32)
  | enqueue (p : Port) (v : BitVec 32)
  | entryEnqueued (q : QueueNo) (eop : Bool) (entry : List Byte)
  | flush (p : Port) (v : Byte)
  | flushPoint (q : QueueNo)
  | queueReset (q : QueueNo) (u : QueueUpset)
  | ledgerCheck (checker : Fin 9)
  | ledgerLocate (t : Tile)
  | ledgerResume (p : Port) (v : Byte)
  | clearMemoryCondition (p : Port) (v : Byte)
  | eventDelivery
  | faultLatchClear (p : Port) (v : Byte)
  | triggerLinePulse (p : Port) (mask : BitVec 32)
  | trigInput (k : Fin 4) (edge : Fin 1000) (width : BitVec 32)
  | snapshotTrigger (p : Port) (v : Byte)
  | snapIn
  | snapshotLatch
  | rearmAllBanks (p : Port) (v : Byte)
  | rearmBank (p : Port) (v : Byte)
  | headSetupCommit (p : Port) (h : Head) (v : Byte)
  | headEnable (p : Port) (h : Head)
  | headDisable (p : Port) (h : Head)
  | frameCommit (p : Port) (h : Head) (v : Byte)
  | latchInstant (h : Head)
  | lineFetch (h : Head)
  | lineMatch (h : Head)
  | pixelUnderrun (h : Head)
  | frameDone (h : Head) (readBack : List (List Int))
  | porstN
  | wake (toggles : Bool)
  | fuseReadDone (programmed wrong : BitVec 16384)
  | imageReadDone (r : SlotRead)
  | microcodeBroadcastDone (faults : List LoadFault)
  | bootRestart (p : Port) (v : Byte)
  | coreWatchdog (h : Half)
  | pageFill (h : Half) (page : BitVec 10) (bytes : List Byte)
  | primroseReread (arbiter halfW halfE : Copies)
  | primacyAssignment (p : Port) (v : Byte)
  | rollbackBurn (p : Port) (v : Byte)
  | hostFrameStart (p : Port) (v : Byte)
  | cspFrameDone (data : List Byte)
  | cspRdyTimeout
  | windowRead (k : Sel) (off : BitVec 28) (len : BitVec 16)
  | windowWrite (k : Sel) (off : BitVec 28) (data : List Byte)
  | statusPoll (k : Sel) (status : Byte)
  | writeTimeout (k : Sel)
  | sspRead (f : SspFrame)
  | sspWrite (f : SspFrame)
  | sspRangeRead (f : SspFrame)
  | sspRangeWrite (f : SspFrame)
  | sspStatus (f : SspFrame)
  | sspDiscard (cut : SspCut)
  | calibrationRequest (p : Port) (v : BitVec 16)
  | calibrationStart (t : Tile)
  | calibrationRunDone (t : Tile) (r : CalReport)
  | retryIntervalExpiry (t : Tile)
  | latencyTolerance (p : Port) (t : Tile) (v : BitVec 32)
  | powerStateChange (t : Tile)
  | dormantReentry (t : Tile)
  | sensorConversion (t : Tile) (conv : List Conversion)
  | sensorSelfTest (t : Tile) (deviations : List Int)
  | temperaturePrediction
  | analogTrip (t : Tile)
  | shutdownComplete
  | thermalCommit (p : Port) (v : Byte)
  | thermalReArm (p : Port) (v : Byte) (selfTestFailed : BitVec 64)
  | supplyOutOfRange (rail : Fin 7)
  | vaonReset
  | dpsClampRelease (d : Dps)
  | supplyBackInRange (rail : Fin 7)
  | porstNAssertion
deriving DecidableEq, Repr

end Sys2Proof
end

