-- ==== Sys2Proof/Decode.lean ====
section
/-!
DEFINITION. Words that spell commands. No row of the table gives bits, so no table word spells a command; the words of
the Veruisk instruction stream (R123, R124) spell the sequencer's commands.
-/
namespace Sys2Proof

/-- The command that a word of the opcode table spells: no row gives its bits. -/
def decodeTableWord (_nbits _w : Nat) : Option Instr := none

/-- The opcode of an instruction word (R123). -/
def wordOpcode (v : BitVec 128) : BitVec 8 := v.extractLsb' 0 8

/-- The fields of an instruction word (R123). -/
def wordFields (v : BitVec 128) : VWord :=
  { mode := v.getLsbD 8, res := v.getLsbD 9, ssm := v.getLsbD 10, pred := v.getLsbD 11, rsv := v.extractLsb' 12 4,
    a := v.extractLsb' 16 8, b := v.extractLsb' 24 8, n := v.extractLsb' 32 32, t := v.extractLsb' 64 32,
    x := v.extractLsb' 96 32, poisoned := false }

/-- The command of an instruction word at site `s` (R124). JMP and SIGNAL are split by their form field, CAPT by its
lowest action; a word whose form the table does not list goes to the first row of its opcode, which halts the site. -/
def commandOfWord (s : Site) (v : BitVec 128) : Instr :=
  let w := wordFields v
  match (wordOpcode v).toNat with
  | 0x01 => .vec s w
  | 0x02 => .rpt s w
  | 0x03 => .loop s w
  | 0x04 => .endl s w
  | 0x05 => .call s w
  | 0x06 => .ret s w
  | 0x07 => if w.a = 1 then .jmpArm s w else if w.a = 2 then .jmpDisarm s w else .jmp s w
  | 0x08 => .bif s w
  | 0x09 => .matchBlock s w
  | 0x0A => .tset s w
  | 0x0B => .lset s w
  | 0x0C => .wait s w
  | 0x0D => if w.b = 1 then .signalSet s w else if w.b = 2 then .signalClear s w else .signalPulse s w
  | 0x0E =>
    if w.a.getLsbD 0 then .captArm s w else if w.a.getLsbD 1 then .captAcq s w
    else if w.a.getLsbD 2 then .captFwclr s w else .captLog s w
  | 0x0F => .halt s w
  | _ => .illegalOpcode s (wordOpcode v) w

/-- An instruction word from its opcode and fields (R123). -/
def wordOf (opc : BitVec 8) (w : VWord) : BitVec 128 :=
  w.x ++ w.t ++ w.n ++ w.b ++ w.a ++ w.rsv ++ BitVec.ofBool w.pred ++ BitVec.ofBool w.ssm ++ BitVec.ofBool w.res ++
    BitVec.ofBool w.mode ++ opc

/-- The instruction word of a sequencer command. -/
def encodeWord : Instr → Option (BitVec 128)
  | .vec _ w => some (wordOf 0x01 w)
  | .rpt _ w => some (wordOf 0x02 w)
  | .loop _ w => some (wordOf 0x03 w)
  | .endl _ w => some (wordOf 0x04 w)
  | .call _ w => some (wordOf 0x05 w)
  | .ret _ w => some (wordOf 0x06 w)
  | .jmp _ w => some (wordOf 0x07 w)
  | .jmpArm _ w => some (wordOf 0x07 w)
  | .jmpDisarm _ w => some (wordOf 0x07 w)
  | .bif _ w => some (wordOf 0x08 w)
  | .matchBlock _ w => some (wordOf 0x09 w)
  | .tset _ w => some (wordOf 0x0A w)
  | .lset _ w => some (wordOf 0x0B w)
  | .wait _ w => some (wordOf 0x0C w)
  | .signalPulse _ w => some (wordOf 0x0D w)
  | .signalSet _ w => some (wordOf 0x0D w)
  | .signalClear _ w => some (wordOf 0x0D w)
  | .captArm _ w => some (wordOf 0x0E w)
  | .captAcq _ w => some (wordOf 0x0E w)
  | .captFwclr _ w => some (wordOf 0x0E w)
  | .captLog _ w => some (wordOf 0x0E w)
  | .halt _ w => some (wordOf 0x0F w)
  | .illegalOpcode _ opc w => some (wordOf opc w)
  | _ => none

end Sys2Proof
end

