-- ==== Sys2Proof/Config.lean ====
section
/-!
DEFINITION. What the spec leaves to the part or to chance: constants with no body, so that nothing can be proved
of their values.
-/
namespace Sys2Proof.Config

/-- The random challenge of an upper-role request (R58), one for each value of the free-value counter. -/
opaque challenge : Nat → BitVec 128

/-- The byte that a read of SDRAM returns which nothing has written and no zero fill has covered (R264). -/
opaque unwrittenByte : Nat → Byte

/-- Whether a burst that nothing has written and no zero fill has covered reads as poisoned (R264). -/
opaque unwrittenPoison : Nat → Bool

/-- The estimated frequency difference from the master at a SYNC (R49 step 3), in units of 2^-16 ns per ms. -/
opaque freqEstimate : Nat → Int

/-- The time in ps above 6 ns, at most 1 ns, from a TRIG pin's edge to its line (R300), by the free-value counter. -/
opaque trigDelay : Nat → Fin 1001

/-- A SNAP_IN edge is registered in the fifth cycle after the one it comes in, rather than in the fourth (R304). -/
opaque snapLate : Nat → Bool

/-- Whether a pulse shorter than 3 ns on a TRIG pin asserts its line (R300), by the free-value counter. -/
opaque shortPulse : Nat → Bool

/-- A count of edges above 3.0 GHz (R112). -/
opaque edgeCount : Nat → Nat

/-- A field of a record that the spec gives no value for in a case that it lets happen, one for each value of the
free-value counter. -/
opaque unstated : Nat → Nat

/-- The firmware version of an image (R340): the spec gives the object and no field of the image that holds it. -/
opaque firmwareVersion : Nat → Nat

/-- Where on its way to a new code a level output stands (R74), or how far it has drifted without REFCLK (R91), in nV: by output,
load instant and present instant in ps. The model keeps it within the bounds that the spec states. -/
opaque levelPath : Nat → Nat → Nat → Int

/-- The deviation in nV of level output `24 * quad + i` from a code, as its DAC gives it with no calibration (R365, R394). The model
keeps the corrected output within the figures that the spec states. -/
opaque levelDeviation : Nat → Int → Int

/-- The deviation in nV of a DPS channel's output from its set point in µV, with no calibration (R365, R395). -/
opaque dpsDeviation : Nat → Int → Int

/-- Which way a comparator decides where the pin is within its offset of the threshold (R65), or a pin whose voltage no sender
gives, and whether an excursion shorter than 50 ps is detected (R97): by the free-value counter and channel. -/
opaque comparator : Nat → Nat → Bool

/-- Whether a stop edge less than 60 ps after the start edge is counted (R109), by the free-value counter. -/
opaque nearStop : Nat → Bool

/-- Whether the devices of a subchannel provide directed refresh management (R263). -/
opaque directedRfm : Nat → Bool

/-- The measured forwarding delay in ps (R43). -/
opaque forwardingDelay : Nat

/-- The measured voltages of the seven rails in the order of 0x1390.01 to .07 (R389), one for each value of the cycle count. -/
opaque railVoltage : Nat → Nat → Nat

/-- The sensors that fail the self-test made at a re-arm (R385), one for each value of the free-value counter. -/
opaque selfTestFailed : Nat → BitVec 64

/-- The nominal trims and repairs that the fuse bits of an uncorrectable segment fall back to (R335). -/
opaque nominalTrims : BitVec 14400

end Sys2Proof.Config
end

