-- ==== Sys2Proof/Machine/Cells.lean ====
section
/-!
DEFINITION. Sparse data by number: a list of (number, value) pairs in one canonical form, numbers strictly rising
and no pair that holds what an unlisted number reads as. The register file, the memories and the per-unit records
are kept so, and equal contents are equal lists.
-/
namespace Sys2Proof.Machine.Cells

variable {α : Type}

/-- The value listed at `k`. -/
def find (k : Nat) : List (Nat × α) → Option α
  | [] => none
  | (j, v) :: m => if j = k then some v else find k m

/-- What `k` reads as: the listed value, or what `d` gives an unlisted number. -/
def read (d : α) (k : Nat) (m : List (Nat × α)) : α := (find k m).getD d

/-- The list without `k`. -/
def drop (k : Nat) : List (Nat × α) → List (Nat × α)
  | [] => []
  | (j, v) :: m => if j = k then drop k m else (j, v) :: drop k m

/-- `v` put at `k`, in rising order, where `k` is not listed. -/
def place (k : Nat) (v : α) : List (Nat × α) → List (Nat × α)
  | [] => [(k, v)]
  | (j, w) :: m => if k < j then (k, v) :: (j, w) :: m else (j, w) :: place k v m

/-- `v` written at `k`, where an unlisted `k` reads as `d`: a value equal to `d` is not listed. -/
def write [DecidableEq α] (d : α) (k : Nat) (v : α) (m : List (Nat × α)) : List (Nat × α) :=
  if v = d then drop k m else place k v (drop k m)

/-- Numbers strictly rising. -/
def rising : List (Nat × α) → Bool
  | [] => true
  | [_] => true
  | (j, _) :: (k, w) :: m => decide (j < k) && rising ((k, w) :: m)

/-- The canonical form, where an unlisted `k` reads as `d k`. -/
def wf [DecidableEq α] (d : Nat → α) (m : List (Nat × α)) : Bool :=
  rising m && m.all fun p => decide (p.2 ≠ d p.1)

end Sys2Proof.Machine.Cells
end

