-- ==== Sys2Proof/Machine/Objects.lean ====
section
/-!
DEFINITION. The object dictionary: one row for each object the spec's tables give (chapters 00 to 16), with its
index, subindex, size, access kind, roles, default and stated values (R10, R56, R61). A row stands for `units`
consecutive indices and `count` consecutive subindices. A default that the spec gives as no number is 0 here
(DESIGN CHOICE, log entry 1).
-/
namespace Sys2Proof.Machine

/-- Access kinds (00, The object dictionary at a glance). -/
inductive Access where
  | ro
  | rw
  | wo
  | rws
deriving DecidableEq, Repr

/-- The values that may be written (R61 kind 3); `special` values are judged by `specialOk`. -/
inductive ValueRange where
  | any
  | one (v : Nat)
  | le (hi : Nat)
  | rng (lo hi : Nat)
  | special
deriving DecidableEq, Repr

/-- One object, or a run of like objects. `code`: every four bytes of the value are a level or current code (R5). -/
structure ObjRow where
  base : Nat
  units : Nat
  sub : Nat
  count : Nat
  size : Nat
  access : Access
  writeRole : Nat
  readRole : Nat
  reset : Nat
  range : ValueRange
  code : Bool
deriving DecidableEq, Repr

/-- Objects of index 0x1000. -/
def identityRows : List ObjRow := [
  ⟨0x1000, 1, 0x01, 1, 34, .ro, 1, 0, 2036736150106747240455, .any, false⟩, -- Vendor name (R3)
  ⟨0x1000, 1, 0x02, 1, 34, .ro, 1, 0, 3616730444407963654, .any, false⟩, -- Part name (R3)
  ⟨0x1000, 1, 0x03, 1, 1, .ro, 1, 0, 0, .any, false⟩, -- Speed grade (R3)
  ⟨0x1000, 1, 0x04, 1, 1, .ro, 1, 0, 0, .any, false⟩, -- Silicon stepping (R3)
  ⟨0x1000, 1, 0x05, 1, 8, .ro, 1, 0, 0, .any, false⟩, -- Unit serial number (R3)
  ⟨0x1000, 1, 0x10, 1, 1, .ro, 1, 0, 0, .any, false⟩, -- Current role (R56)
  ⟨0x1000, 1, 0x11, 1, 1, .rw, 0, 0, 0, .le 3, false⟩, -- Role request (R56)
  ⟨0x1000, 1, 0x12, 1, 18, .ro, 1, 0, 16, .any, false⟩, -- Challenge (R56)
  ⟨0x1000, 1, 0x13, 1, 34, .wo, 0, 0, 0, .special, false⟩, -- Response (R56)
  ⟨0x1000, 1, 0x14, 1, 2, .ro, 1, 0, 0, .any, false⟩, -- Consecutive failures (R56)
  ⟨0x1000, 1, 0x15, 1, 4, .ro, 1, 0, 0, .any, false⟩, -- Lockout remaining (R56)
  ⟨0x1000, 1, 0x20, 1, 24, .wo, 1, 0, 0, .any, false⟩] -- Site start (R212)

/-- Objects of index 0x1100. -/
def ringRows : List ObjRow := [
  ⟨0x1100, 1, 0x01, 1, 2, .rw, 1, 0, 34997, .special, false⟩, -- EtherType (R400)
  ⟨0x1100, 1, 0x02, 1, 2, .rw, 1, 0, 0, .le 0xFFFE, false⟩, -- Node address (R400)
  ⟨0x1100, 1, 0x03, 1, 4, .rw, 1, 0, 0, .any, false⟩, -- Group mask (R400)
  ⟨0x1100, 1, 0x04, 1, 1, .rw, 1, 0, 255, .special, false⟩, -- Ring position (R400)
  ⟨0x1100, 1, 0x05, 1, 1, .ro, 1, 0, 0, .any, false⟩, -- Ring state (R400)
  ⟨0x1100, 1, 0x06, 1, 1, .rw, 1, 0, 1, .rng 1 3, false⟩, -- Requested ring state (R400)
  ⟨0x1100, 1, 0x07, 1, 4, .rw, 1, 0, 1000, .any, false⟩, -- Cyclic watchdog (R400)
  ⟨0x1100, 1, 0x08, 1, 4, .ro, 1, 0, 0, .any, false⟩, -- Forwarding delay (R400)
  ⟨0x1100, 1, 0x09, 1, 4, .ro, 1, 0, 0, .any, false⟩, -- Upstream link delay (R400)
  ⟨0x1100, 1, 0x0A, 1, 1, .ro, 1, 0, 0, .any, false⟩, -- Port status (R400)
  ⟨0x1100, 1, 0x0B, 1, 8, .ro, 1, 0, 0, .any, false⟩, -- Ring time (R400)
  ⟨0x1100, 1, 0x0C, 1, 2, .ro, 1, 0, 0, .any, false⟩, -- Ring time fraction (R400)
  ⟨0x1100, 1, 0x0D, 1, 4, .ro, 1, 0, 0, .any, false⟩, -- Offset from master (R400)
  ⟨0x1100, 1, 0x0E, 1, 1, .ro, 1, 0, 0, .any, false⟩, -- Time locked (R400)
  ⟨0x1100, 1, 0x0F, 1, 4, .ro, 1, 0, 0, .any, false⟩, -- Last cycle number (R400)
  ⟨0x1100, 1, 0x10, 1, 4, .ro, 1, 0, 0, .any, false⟩, -- FCS error count (R400)
  ⟨0x1100, 1, 0x11, 1, 4, .ro, 1, 0, 0, .any, false⟩, -- Malformed datagram count (R400)
  ⟨0x1100, 1, 0x12, 1, 4, .ro, 1, 0, 0, .any, false⟩, -- Bulk drop count (R400)
  ⟨0x1100, 1, 0x13, 1, 8, .ro, 1, 0, 0, .any, false⟩, -- Datagrams processed (R400)
  ⟨0x1100, 1, 0x14, 1, 8, .ro, 1, 0, 0, .any, false⟩, -- Datagrams forwarded (R400)
  ⟨0x1100, 1, 0x15, 1, 1, .ro, 1, 0, 0, .any, false⟩, -- Bulk read status (R400)
  ⟨0x1100, 1, 0x16, 1, 4, .ro, 1, 0, 0, .any, false⟩, -- Sync deadline misses (R400)
  ⟨0x1100, 1, 0x17, 1, 8, .ro, 1, 0, 0, .any, false⟩, -- Bulk writes completed (R400)
  ⟨0x1100, 1, 0x18, 1, 8, .ro, 1, 0, 0, .any, false⟩, -- Datagrams received (R400)
  ⟨0x1100, 1, 0x19, 1, 4, .rw, 1, 0, 0, .any, false⟩, -- Upstream asymmetry (R400)
  ⟨0x1100, 1, 0x1A, 1, 1, .rw, 1, 0, 0, .le 1, false⟩, -- Port mode (R400)
  ⟨0x1100, 1, 0x1E, 1, 1, .ro, 1, 0, 0, .any, false⟩, -- Hop count seen (R400)
  ⟨0x1100, 1, 0x1B, 1, 8, .rw, 1, 0, 0, .any, false⟩, -- Bulk load total (R53)
  ⟨0x1100, 1, 0x1C, 1, 1, .ro, 1, 0, 0, .any, false⟩, -- Bulk load progress (R53)
  ⟨0x1100, 1, 0x1D, 1, 8, .ro, 1, 0, 0, .any, false⟩] -- Bulk load position (R53)

/-- Objects of index 0x1200. -/
def bootRows : List ObjRow := [
  ⟨0x1200, 1, 0x01, 1, 1, .ro, 1, 0, 1, .any, false⟩, -- Boot state (R333)
  ⟨0x1200, 1, 0x02, 1, 1, .ro, 1, 0, 0, .any, false⟩, -- Boot progress (R333)
  ⟨0x1200, 1, 0x03, 1, 8, .ro, 1, 0, 0, .any, false⟩, -- Boot position (R333)
  ⟨0x1200, 1, 0x04, 1, 1, .ro, 1, 0, 0, .any, false⟩, -- Boot failure code (R333)
  ⟨0x1200, 1, 0x05, 1, 1, .ro, 1, 0, 255, .any, false⟩, -- Slot booted (R333)
  ⟨0x1200, 1, 0x06, 1, 4, .ro, 1, 0, 0, .any, false⟩, -- Time to READY (R333)
  ⟨0x1200, 1, 0x07, 1, 4, .ro, 1, 0, 0, .any, false⟩, -- Image length (R333)
  ⟨0x1200, 1, 0x08, 1, 4, .ro, 1, 0, 0, .any, false⟩, -- Image security version (R333)
  ⟨0x1200, 1, 0x09, 1, 1, .ro, 1, 0, 0, .any, false⟩, -- Slot A failure code (R333)
  ⟨0x1200, 1, 0x0A, 1, 1, .ro, 1, 0, 0, .any, false⟩, -- Wait cause (R333)
  ⟨0x1200, 1, 0x0B, 1, 1, .wo, 2, 0, 0, .one 1, false⟩] -- Boot restart (R333)

/-- Objects of index 0x1210. -/
def fuseRows : List ObjRow := [
  ⟨0x1210, 1, 0x01, 1, 50, .ro, 1, 0, 0, .any, false⟩, -- Public-key hash (R336)
  ⟨0x1210, 1, 0x02, 1, 8, .ro, 1, 0, 0, .any, false⟩, -- Option bits (R336)
  ⟨0x1210, 1, 0x03, 1, 1, .ro, 1, 0, 0, .any, false⟩, -- Uncorrectable segments (R336)
  ⟨0x1210, 1, 0x04, 1, 2, .ro, 1, 0, 0, .any, false⟩, -- Corrected fuse bits (R336)
  ⟨0x1210, 1, 0x05, 1, 1, .rw, 3, 0, 0, .special, false⟩] -- Rollback value (R336)

/-- Objects of index 0x1220. -/
def primacyRows : List ObjRow := [
  ⟨0x1220, 1, 0x01, 3, 4, .ro, 1, 0, 0, .any, false⟩, -- Primrose copy 0–2 (R344)
  ⟨0x1220, 1, 0x04, 1, 1, .ro, 1, 0, 2, .any, false⟩, -- Supervisor half (R344)
  ⟨0x1220, 1, 0x05, 1, 1, .ro, 1, 0, 2, .any, false⟩, -- Half W majority (R344)
  ⟨0x1220, 1, 0x06, 1, 1, .ro, 1, 0, 2, .any, false⟩, -- Half E majority (R344)
  ⟨0x1220, 1, 0x07, 1, 1, .wo, 2, 0, 0, .le 1, false⟩, -- Primacy assignment (R344)
  ⟨0x1220, 1, 0x08, 1, 1, .ro, 1, 0, 0, .any, false⟩, -- Assignment outcome (R344)
  ⟨0x1220, 1, 0x09, 1, 4, .ro, 1, 0, 0, .any, false⟩] -- Copies repaired (R344)

/-- Objects of index 0x1230. -/
def coreRows : List ObjRow := [
  ⟨0x1230, 2, 0x01, 1, 1, .ro, 1, 0, 0, .any, false⟩, -- Core state (R340)
  ⟨0x1230, 2, 0x02, 1, 1, .ro, 1, 0, 0, .any, false⟩, -- Core role (R340)
  ⟨0x1230, 2, 0x03, 1, 4, .ro, 1, 0, 0, .any, false⟩, -- Firmware version (R340)
  ⟨0x1230, 2, 0x04, 1, 4, .ro, 1, 0, 0, .any, false⟩, -- Restarts (R340)
  ⟨0x1230, 2, 0x05, 1, 4, .ro, 1, 0, 0, .any, false⟩, -- Page digest mismatches (R340)
  ⟨0x1230, 2, 0x06, 1, 1, .ro, 1, 0, 0, .any, false⟩] -- Last restart cause (R340)

/-- Objects of index 0x1240. -/
def cspRows : List ObjRow := [
  ⟨0x1240, 1, 0x01, 1, 16, .rw, 2, 2, 0, .any, false⟩, -- Host frame descriptor (R350)
  ⟨0x1240, 1, 0x02, 1, 258, .rw, 2, 2, 0, .special, false⟩, -- Host frame data (R350)
  ⟨0x1240, 1, 0x03, 1, 1, .wo, 2, 0, 0, .one 1, false⟩, -- Host frame start (R350)
  ⟨0x1240, 1, 0x04, 1, 1, .ro, 1, 0, 0, .any, false⟩, -- Host frame status (R350)
  ⟨0x1240, 1, 0x05, 1, 4, .ro, 1, 0, 0, .any, false⟩, -- Host frames performed (R350)
  ⟨0x1240, 1, 0x06, 1, 4, .rw, 1, 0, 1000, .any, false⟩] -- Ready timeout (R350)

/-- Objects of index 0x1241. -/
def cspWindowRows : List ObjRow := [
  ⟨0x1241, 4, 0x01, 1, 1, .ro, 1, 0, 0, .any, false⟩, -- Window enable (R350)
  ⟨0x1241, 4, 0x02, 1, 16, .rw, 2, 0, 0, .any, false⟩, -- Window read descriptor (R350)
  ⟨0x1241, 4, 0x03, 1, 16, .rw, 2, 0, 65542, .any, false⟩, -- Write-enable descriptor (R350)
  ⟨0x1241, 4, 0x04, 1, 16, .rw, 2, 0, 288230376218886162, .any, false⟩, -- Program descriptor (R350)
  ⟨0x1241, 4, 0x05, 1, 16, .rw, 2, 0, 79228162514264337593544015877, .any, false⟩, -- Status descriptor (R350)
  ⟨0x1241, 4, 0x06, 1, 1, .rw, 1, 0, 1, .any, false⟩, -- Status mask (R350)
  ⟨0x1241, 4, 0x07, 1, 1, .rw, 1, 0, 0, .any, false⟩, -- Status ready value (R350)
  ⟨0x1241, 4, 0x08, 1, 2, .rw, 1, 0, 256, .special, false⟩, -- Program page size (R350)
  ⟨0x1241, 4, 0x09, 1, 4, .rw, 1, 0, 10, .any, false⟩, -- Poll interval (R350)
  ⟨0x1241, 4, 0x0A, 1, 4, .rw, 1, 0, 10000, .any, false⟩, -- Write timeout (R350)
  ⟨0x1241, 4, 0x0B, 1, 4, .ro, 1, 0, 0, .any, false⟩, -- Translated writes (R350)
  ⟨0x1241, 4, 0x0C, 1, 4, .ro, 1, 0, 0, .any, false⟩] -- Translated write failures (R350)

/-- Objects of index 0x1250. -/
def sspRows : List ObjRow := [
  ⟨0x1250, 1, 0x01, 1, 4, .ro, 1, 0, 0, .any, false⟩, -- SSP frames completed (R355)
  ⟨0x1250, 1, 0x02, 1, 4, .ro, 1, 0, 0, .any, false⟩, -- SSP frames discarded (R355)
  ⟨0x1250, 1, 0x03, 1, 1, .ro, 1, 0, 0, .any, false⟩, -- Last discard cause (R355)
  ⟨0x1250, 1, 0x04, 1, 1, .ro, 1, 0, 0, .any, false⟩, -- SPI mode seen (R355)
  ⟨0x1250, 1, 0x05, 1, 1, .ro, 1, 0, 0, .any, false⟩] -- SSP enabled (R355)

/-- Objects of index 0x1260. -/
def microcodeRows : List ObjRow := [
  ⟨0x1260, 1, 0x01, 1, 2, .ro, 1, 0, 0, .any, false⟩, -- Microcode major version (R152)
  ⟨0x1260, 1, 0x02, 1, 2, .ro, 1, 0, 0, .any, false⟩, -- Microcode minor version (R152)
  ⟨0x1260, 1, 0x03, 1, 4, .ro, 1, 0, 0, .any, false⟩, -- Microcode build (R152)
  ⟨0x1260, 1, 0x04, 1, 2, .ro, 1, 0, 0, .any, false⟩, -- ISA level (R152)
  ⟨0x1260, 1, 0x05, 1, 4, .ro, 1, 0, 0, .any, false⟩, -- Expected control-store CRC (R152)
  ⟨0x1260, 1, 0x06, 1, 1, .ro, 1, 0, 0, .any, false⟩, -- Quads loaded (R152)
  ⟨0x1260, 1, 0x07, 1, 8, .ro, 1, 0, 0, .any, false⟩, -- Fenced quads low (R152)
  ⟨0x1260, 1, 0x08, 1, 8, .ro, 1, 0, 0, .any, false⟩, -- Fenced quads high (R152)
  ⟨0x1260, 1, 0x09, 1, 10, .ro, 1, 0, 0, .any, false⟩] -- Image digest prefix (R152)

/-- Objects of index 0x1300. -/
def thermalRows : List ObjRow := [
  ⟨0x1300, 1, 0x01, 1, 1, .rws, 2, 0, 95, .any, false⟩, -- Warning threshold (R385)
  ⟨0x1300, 1, 0x02, 1, 1, .rws, 2, 0, 105, .any, false⟩, -- Throttle threshold (R385)
  ⟨0x1300, 1, 0x03, 1, 1, .rws, 2, 0, 118, .any, false⟩, -- Shutdown threshold (R385)
  ⟨0x1300, 1, 0x04, 1, 1, .rws, 2, 0, 5, .any, false⟩, -- Warning hysteresis (R385)
  ⟨0x1300, 1, 0x05, 1, 1, .rws, 2, 0, 5, .any, false⟩, -- Throttle hysteresis (R385)
  ⟨0x1300, 1, 0x06, 1, 1, .rws, 2, 0, 5, .any, false⟩, -- Shutdown hysteresis (R385)
  ⟨0x1300, 1, 0x07, 1, 8, .rws, 3, 0, 0, .any, false⟩, -- Sensor exclude mask (R385)
  ⟨0x1300, 1, 0x0E, 1, 2, .ro, 1, 0, 0, .any, false⟩, -- Thermal commit status (R385)
  ⟨0x1300, 1, 0x0F, 1, 1, .wo, 2, 0, 0, .one 1, false⟩, -- Thermal commit (R385)
  ⟨0x1300, 1, 0x10, 1, 2, .ro, 1, 0, 2400, .any, false⟩, -- Chip hottest (R385)
  ⟨0x1300, 1, 0x11, 1, 1, .ro, 1, 0, 0, .any, false⟩, -- Hottest tile (R385)
  ⟨0x1300, 1, 0x12, 1, 1, .ro, 1, 0, 0, .any, false⟩, -- Thermal state (R385)
  ⟨0x1300, 1, 0x13, 1, 1, .ro, 1, 0, 0, .any, false⟩, -- Shutdown cause (R385)
  ⟨0x1300, 1, 0x14, 1, 1, .wo, 1, 0, 0, .one 1, false⟩, -- Re-arm (R385)
  ⟨0x1300, 1, 0x15, 1, 1, .ro, 1, 0, 0, .any, false⟩, -- Re-arm result (R385)
  ⟨0x1300, 1, 0x16, 1, 4, .ro, 1, 0, 0, .any, false⟩, -- Shutdowns (R385)
  ⟨0x1300, 1, 0x17, 1, 4, .ro, 1, 0, 4294967295, .any, false⟩] -- Predicted time to critical (R385)

/-- Objects of index 0x1310. -/
def sensorRows : List ObjRow := [
  ⟨0x1310, 8, 0x01, 8, 2, .ro, 1, 0, 2400, .any, false⟩, -- Sensor reading, k = 0–7 (R385)
  ⟨0x1310, 8, 0x09, 1, 2, .ro, 1, 0, 2400, .any, false⟩, -- Tile hottest (R385)
  ⟨0x1310, 8, 0x0A, 1, 1, .ro, 1, 0, 0, .any, false⟩, -- Hottest sensor (R385)
  ⟨0x1310, 8, 0x0B, 1, 1, .ro, 1, 0, 7, .any, false⟩, -- Level states (R385)
  ⟨0x1310, 8, 0x0C, 1, 1, .ro, 1, 0, 0, .any, false⟩, -- Sensor fault mask (R385)
  ⟨0x1310, 8, 0x0D, 1, 1, .ro, 1, 0, 0, .any, false⟩, -- Last fault cause (R385)
  ⟨0x1310, 8, 0x0E, 1, 8, .ro, 1, 0, 0, .any, false⟩, -- Throttle time (R385)
  ⟨0x1310, 8, 0x0F, 1, 1, .ro, 1, 0, 0, .any, false⟩] -- Analog trip (R385)

/-- Objects of index 0x1320. -/
def powerRows : List ObjRow := [
  ⟨0x1320, 8, 0x01, 1, 4, .rw, 1, 0, 0, .any, false⟩, -- Latency tolerance (R373)
  ⟨0x1320, 8, 0x02, 1, 1, .ro, 1, 0, 0, .any, false⟩, -- Power state (R373)
  ⟨0x1320, 8, 0x03, 1, 1, .ro, 1, 0, 0, .any, false⟩, -- Target state (R373)
  ⟨0x1320, 8, 0x04, 1, 1, .ro, 1, 0, 0, .any, false⟩, -- Floor (R373)
  ⟨0x1320, 8, 0x05, 1, 1, .ro, 1, 0, 0, .any, false⟩, -- Floor conditions (R373)
  ⟨0x1320, 8, 0x06, 1, 4, .ro, 1, 0, 0, .any, false⟩, -- State changes (R373)
  ⟨0x1320, 8, 0x07, 1, 4, .ro, 1, 0, 0, .any, false⟩, -- Last wake latency (R373)
  ⟨0x1320, 8, 0x08, 1, 1, .ro, 1, 0, 0, .any, false⟩] -- Transition in progress (R373)

/-- Objects of index 0x1380. -/
def railRows : List ObjRow := [
  ⟨0x1380, 1, 0x01, 1, 4, .ro, 1, 0, 0, .any, false⟩, -- VDPS_W measured (R225)
  ⟨0x1380, 1, 0x02, 1, 4, .ro, 1, 0, 0, .any, false⟩, -- VDPS_W required minimum (R225)
  ⟨0x1380, 1, 0x03, 1, 4, .ro, 1, 0, 0, .any, false⟩, -- VDPS_W recommended maximum (R225)
  ⟨0x1380, 1, 0x04, 1, 4, .ro, 1, 0, 0, .any, false⟩, -- Half W highest output H (R225)
  ⟨0x1380, 1, 0x05, 1, 1, .ro, 1, 0, 4, .any, false⟩, -- VDPS_W status (R225)
  ⟨0x1380, 1, 0x11, 1, 4, .ro, 1, 0, 0, .any, false⟩, -- VDPS_E measured (R225)
  ⟨0x1380, 1, 0x12, 1, 4, .ro, 1, 0, 0, .any, false⟩, -- VDPS_E required minimum (R225)
  ⟨0x1380, 1, 0x13, 1, 4, .ro, 1, 0, 0, .any, false⟩, -- VDPS_E recommended maximum (R225)
  ⟨0x1380, 1, 0x14, 1, 4, .ro, 1, 0, 0, .any, false⟩, -- VDPS_E highest output H (R225)
  ⟨0x1380, 1, 0x15, 1, 1, .ro, 1, 0, 4, .any, false⟩] -- VDPS_E status (R225)

/-- Objects of index 0x1390. -/
def supplyRows : List ObjRow := [
  ⟨0x1390, 1, 0x01, 1, 4, .ro, 1, 0, 0, .any, false⟩, -- VDD measured (R389)
  ⟨0x1390, 1, 0x02, 1, 4, .ro, 1, 0, 0, .any, false⟩, -- VAON measured (R389)
  ⟨0x1390, 1, 0x03, 1, 4, .ro, 1, 0, 0, .any, false⟩, -- VDDH measured (R389)
  ⟨0x1390, 1, 0x04, 1, 4, .ro, 1, 0, 0, .any, false⟩, -- VDDQ measured (R389)
  ⟨0x1390, 1, 0x05, 1, 4, .ro, 1, 0, 0, .any, false⟩, -- VDDIO measured (R389)
  ⟨0x1390, 1, 0x06, 1, 4, .ro, 1, 0, 0, .any, false⟩, -- VCC_PE measured (R389)
  ⟨0x1390, 1, 0x07, 1, 4, .ro, 1, 0, 0, .any, false⟩, -- VEE_PE measured (R389)
  ⟨0x1390, 1, 0x08, 1, 1, .ro, 1, 0, 0, .any, false⟩, -- Supply status (R389)
  ⟨0x1390, 1, 0x09, 1, 4, .ro, 1, 0, 0, .any, false⟩, -- Out-of-range episodes (R389)
  ⟨0x1390, 1, 0x10, 1, 8, .ro, 1, 0, 0, .any, false⟩, -- Powered time (R389)
  ⟨0x1390, 1, 0x11, 1, 8, .ro, 1, 0, 0, .any, false⟩, -- Time 95 to 105 °C (R389)
  ⟨0x1390, 1, 0x12, 1, 8, .ro, 1, 0, 0, .any, false⟩, -- Time above 105 °C (R389)
  ⟨0x1390, 1, 0x13, 1, 4, .ro, 1, 0, 0, .any, false⟩] -- Mean junction (R389)

/-- Objects of index 0x1400. -/
def calibrationRows : List ObjRow := [
  ⟨0x1400, 1, 0x01, 1, 1, .rw, 1, 0, 1, .le 1, false⟩, -- Automatic calibration (R367)
  ⟨0x1400, 1, 0x02, 1, 1, .rw, 1, 0, 4, .le 20, false⟩, -- Temperature step ΔT (R367)
  ⟨0x1400, 1, 0x03, 1, 4, .rw, 1, 0, 1000, .any, false⟩, -- Retry interval (R367)
  ⟨0x1400, 1, 0x04, 1, 1, .rw, 1, 0, 8, .any, false⟩, -- Rejection limit (R367)
  ⟨0x1400, 1, 0x05, 1, 2, .wo, 1, 0, 0, .le 0x3FF, false⟩, -- Calibration request (R367)
  ⟨0x1400, 1, 0x07, 1, 4, .ro, 1, 0, 0, .any, false⟩, -- REFV measured (R367)
  ⟨0x1400, 1, 0x08, 1, 4, .ro, 1, 0, 0, .any, false⟩] -- ZCAL measured (R367)

/-- Objects of index 0x1410. -/
def calTileRows : List ObjRow := [
  ⟨0x1410, 8, 0x01, 1, 1, .ro, 1, 0, 0, .any, false⟩, -- Calibration state (R367)
  ⟨0x1410, 8, 0x02, 1, 1, .ro, 1, 0, 0, .any, false⟩, -- Pending kinds (R367)
  ⟨0x1410, 8, 0x03, 1, 1, .ro, 1, 0, 0, .any, false⟩, -- Pending causes (R367)
  ⟨0x1410, 8, 0x04, 1, 4, .ro, 1, 0, 0, .any, false⟩, -- Calibrations accepted (R367)
  ⟨0x1410, 8, 0x05, 1, 4, .ro, 1, 0, 0, .any, false⟩, -- Calibrations rejected (R367)
  ⟨0x1410, 8, 0x06, 1, 8, .ro, 1, 0, 0, .any, false⟩, -- Last calibration time (R367)
  ⟨0x1410, 8, 0x07, 1, 2, .ro, 1, 0, 0, .any, false⟩, -- Reference temperature (R367)
  ⟨0x1410, 8, 0x08, 1, 2, .ro, 1, 0, 0, .any, false⟩, -- Temperature change (R367)
  ⟨0x1410, 8, 0x09, 1, 1, .ro, 1, 0, 0, .any, false⟩, -- Calibration progress (R367)
  ⟨0x1410, 8, 0x0A, 1, 8, .ro, 1, 0, 0, .any, false⟩, -- Calibration position (R367)
  ⟨0x1410, 8, 0x0B, 1, 1, .ro, 1, 0, 0, .any, false⟩, -- Last outcome (R367)
  ⟨0x1410, 8, 0x0C, 1, 1, .ro, 1, 0, 0, .any, false⟩, -- Last rejection cause (R367)
  ⟨0x1410, 8, 0x0D, 1, 1, .ro, 1, 0, 0, .any, false⟩, -- Consecutive rejections (R367)
  ⟨0x1410, 8, 0x0E, 1, 2, .ro, 1, 0, 0, .any, false⟩, -- Rejected units (R367)
  ⟨0x1410, 8, 0x10, 1, 8, .rw, 1, 0, 0, .any, false⟩, -- Internal-mode mask (R367)
  ⟨0x1410, 8, 0x11, 1, 4, .ro, 1, 0, 0, .any, false⟩, -- Broadcast strobes ignored (R367)
  ⟨0x1410, 8, 0x12, 1, 4, .ro, 1, 0, 0, .any, false⟩] -- Last calibration duration (R367)

/-- Objects of index 0x1420. -/
def calHistoryRows : List ObjRow := [
  ⟨0x1420, 4, 0x01, 128, 32, .ro, 1, 0, 80879840001451919384001045261058892020911433267621717443310830747648, .any, false⟩] -- Channel history (R367)

/-- Objects of index 0x1500. -/
def eventRows : List ObjRow := [
  ⟨0x1500, 1, 0x02, 1, 2, .ro, 1, 0, 65535, .any, false⟩, -- Fault latch source (R307)
  ⟨0x1500, 1, 0x03, 1, 1, .wo, 1, 0, 0, .one 1, false⟩, -- Fault latch clear (R307)
  ⟨0x1500, 1, 0x04, 1, 4, .ro, 1, 0, 0, .any, false⟩, -- Fault latch sets (R307)
  ⟨0x1500, 1, 0x05, 1, 1, .rw, 1, 0, 255, .special, false⟩, -- Broadcast strobe line (R307)
  ⟨0x1500, 1, 0x06, 1, 1, .wo, 1, 0, 0, .one 1, false⟩, -- Broadcast strobe now (R307)
  ⟨0x1500, 1, 0x07, 1, 4, .wo, 1, 0, 0, .any, false⟩, -- Trigger-line pulse (R307)
  ⟨0x1500, 1, 0x08, 1, 4, .ro, 1, 0, 0, .any, false⟩, -- Trigger-line state (R307)
  ⟨0x1500, 1, 0x10, 4, 2, .rw, 1, 0, 0, .special, false⟩, -- TRIG0–TRIG3 setup (R307)
  ⟨0x1500, 1, 0x14, 1, 1, .rw, 1, 0, 0, .le 1, false⟩, -- SNAP_IN enable (R307)
  ⟨0x1500, 1, 0x20, 1, 1, .wo, 1, 0, 0, .one 1, false⟩, -- Snapshot trigger (R307)
  ⟨0x1500, 1, 0x21, 1, 1, .wo, 1, 0, 0, .one 1, false⟩, -- Re-arm all banks (R307)
  ⟨0x1500, 1, 0x22, 1, 4, .ro, 1, 0, 0, .any, false⟩, -- Snapshots taken (R307)
  ⟨0x1500, 1, 0x23, 1, 4, .ro, 1, 0, 0, .any, false⟩, -- Triggers while full (R307)
  ⟨0x1500, 1, 0x24, 1, 8, .ro, 1, 0, 0, .any, false⟩, -- Last latch cycle (R307)
  ⟨0x1500, 1, 0x25, 1, 2, .rw, 1, 0, 0, .le 168, false⟩, -- Bank select (R307)
  ⟨0x1500, 1, 0x26, 1, 24, .ro, 1, 0, 0, .any, false⟩] -- Full banks (R307)

/-- Objects of index 0x1501. -/
def bankRows : List ObjRow := [
  ⟨0x1501, 1, 0x01, 1, 256, .ro, 1, 0, 0, .any, false⟩, -- Bank contents (R307)
  ⟨0x1501, 1, 0x02, 1, 1, .wo, 1, 0, 0, .one 1, false⟩] -- Re-arm bank (R307)

/-- Objects of index 0x1540. -/
def routeRows : List ObjRow := [
  ⟨0x1540, 16, 0x01, 16, 16, .rw, 1, 0, 0, .special, false⟩] -- Route records (R307)

/-- Objects of index 0x1550. -/
def sourceCountRows : List ObjRow := [
  ⟨0x1550, 16, 0x01, 16, 32, .ro, 1, 0, 0, .any, false⟩] -- Source counts (R307)

/-- Objects of index 0x1580. -/
def condMapRows : List ObjRow := [
  ⟨0x1580, 8, 0x01, 16, 8, .rw, 1, 0, 18446744073709551615, .special, false⟩] -- Condition input maps (R307)

/-- Objects of index 0x1600. -/
def memoryRows : List ObjRow := [
  ⟨0x1600, 1, 0x01, 1, 2, .rws, 1, 0, 8800, .any, false⟩, -- Data rate (R270)
  ⟨0x1600, 1, 0x02, 1, 1, .rw, 1, 0, 0, .le 1, false⟩, -- Training mode (R270)
  ⟨0x1600, 1, 0x03, 1, 1, .rw, 1, 0, 1, .le 1, false⟩, -- Zero fill (R270)
  ⟨0x1600, 1, 0x04, 1, 2, .rw, 1, 0, 32, .rng 1 65535, false⟩, -- Row-disturbance threshold (R270)
  ⟨0x1600, 1, 0x05, 1, 2, .rw, 1, 0, 0, .any, false⟩, -- Fail-log allotment (R270)
  ⟨0x1600, 1, 0x06, 1, 4, .rw, 1, 0, 24, .any, false⟩, -- Scrub interval (R270)
  ⟨0x1600, 1, 0x0E, 1, 2, .ro, 1, 0, 0, .any, false⟩, -- Memory commit status (R270)
  ⟨0x1600, 1, 0x0F, 1, 1, .wo, 1, 0, 0, .one 1, false⟩, -- Memory commit (R270)
  ⟨0x1600, 1, 0x10, 1, 1, .wo, 1, 0, 0, .rng 1 3, false⟩, -- Training request (R270)
  ⟨0x1600, 1, 0x11, 1, 1, .ro, 1, 0, 0, .any, false⟩, -- Training state (R270)
  ⟨0x1600, 1, 0x12, 1, 1, .ro, 1, 0, 0, .any, false⟩, -- Training progress (R270)
  ⟨0x1600, 1, 0x13, 1, 8, .ro, 1, 0, 0, .any, false⟩, -- Training position (R270)
  ⟨0x1600, 1, 0x14, 1, 1, .ro, 1, 0, 0, .any, false⟩, -- Training request result (R270)
  ⟨0x1600, 1, 0x15, 1, 4, .ro, 1, 0, 3723636, .any, false⟩, -- Table period (R270)
  ⟨0x1600, 1, 0x16, 1, 4, .ro, 1, 0, 35200, .any, false⟩, -- Subchannel bandwidth (R270)
  ⟨0x1600, 1, 0x18, 8, 1, .rw, 1, 0, 16, .rng 1 255, false⟩] -- Best-effort weight 0–7 (R270)

/-- Objects of index 0x1610. -/
def memChannelRows : List ObjRow := [
  ⟨0x1610, 16, 0x01, 1, 1, .rws, 1, 0, 0, .any, false⟩, -- Population (R270)
  ⟨0x1610, 16, 0x02, 1, 1, .rws, 1, 0, 1, .any, false⟩, -- Density (R270)
  ⟨0x1610, 16, 0x03, 1, 1, .ro, 1, 0, 0, .any, false⟩, -- Channel state (R270)
  ⟨0x1610, 16, 0x04, 1, 1, .ro, 1, 0, 0, .any, false⟩, -- Failed training step (R270)
  ⟨0x1610, 16, 0x05, 1, 8, .ro, 1, 0, 0, .any, false⟩, -- Correctable errors (R270)
  ⟨0x1610, 16, 0x06, 1, 8, .ro, 1, 0, 0, .any, false⟩, -- Uncorrectable errors (R270)
  ⟨0x1610, 16, 0x07, 1, 8, .ro, 1, 0, 0, .any, false⟩, -- Last error address (R270)
  ⟨0x1610, 16, 0x08, 1, 1, .ro, 1, 0, 0, .any, false⟩, -- Last error kind (R270)
  ⟨0x1610, 16, 0x09, 1, 4, .ro, 1, 0, 0, .any, false⟩, -- Alerts (R270)
  ⟨0x1610, 16, 0x0A, 1, 8, .ro, 1, 0, 0, .any, false⟩, -- Replayed commands (R270)
  ⟨0x1610, 16, 0x0B, 1, 4, .ro, 1, 0, 0, .any, false⟩, -- Replay failures (R270)
  ⟨0x1610, 16, 0x0C, 1, 2, .rw, 1, 0, 0, .one 0, false⟩, -- Event cause (R270)
  ⟨0x1610, 16, 0x0D, 1, 1, .ro, 1, 0, 0, .any, false⟩, -- Device temperature status (R270)
  ⟨0x1610, 16, 0x0E, 1, 8, .ro, 1, 0, 0, .any, false⟩, -- RFM commands (R270)
  ⟨0x1610, 16, 0x0F, 1, 8, .ro, 1, 0, 0, .any, false⟩] -- Lost slots (R270)

/-- Objects of index 0x1620. -/
def subchannelRows : List ObjRow := [
  ⟨0x1620, 32, 0x01, 1, 2, .ro, 1, 0, 0, .any, false⟩, -- Refresh slots (R270)
  ⟨0x1620, 32, 0x02, 1, 2, .ro, 1, 0, 41, .any, false⟩, -- Repair slots (R270)
  ⟨0x1620, 32, 0x03, 1, 2, .ro, 1, 0, 0, .any, false⟩, -- STREAM granted (R270)
  ⟨0x1620, 32, 0x04, 1, 2, .ro, 1, 0, 0, .any, false⟩, -- CAPTURE granted (R270)
  ⟨0x1620, 32, 0x05, 1, 2, .ro, 1, 0, 0, .any, false⟩, -- RASTER granted (R270)
  ⟨0x1620, 32, 0x06, 1, 2, .ro, 1, 0, 1536, .any, false⟩, -- Real-time free (R270)
  ⟨0x1620, 32, 0x07, 1, 1, .ro, 1, 0, 0, .any, false⟩, -- Grant entries (R270)
  ⟨0x1620, 32, 0x08, 1, 8, .ro, 1, 0, 0, .any, false⟩, -- Granted slots used (R270)
  ⟨0x1620, 32, 0x09, 1, 8, .ro, 1, 0, 0, .any, false⟩, -- Granted slots idle (R270)
  ⟨0x1620, 32, 0x0A, 1, 1024, .ro, 1, 0, 0, .any, false⟩, -- Slot map (R270)
  ⟨0x1620, 32, 0x0B, 1, 8, .ro, 1, 0, 0, .any, false⟩, -- Table periods (R270)
  ⟨0x1620, 32, 0x0C, 1, 2, .ro, 1, 0, 0, .any, false⟩, -- Replay backlog (R270)
  ⟨0x1620, 32, 0x0D, 1, 8, .ro, 1, 0, 1157442765409226768, .any, false⟩, -- Current best-effort weights (R270)
  ⟨0x1620, 32, 0x0E, 1, 8, .ro, 1, 0, 0, .any, false⟩, -- Throttle crossings (R270)
  ⟨0x1620, 32, 0x0F, 1, 8, .ro, 1, 0, 0, .any, false⟩] -- Scrub position (R270)

/-- Objects of index 0x1640. -/
def tileMemoryRows : List ObjRow := [
  ⟨0x1640, 8, 0x01, 1, 1, .ro, 1, 0, 0, .any, false⟩, -- Interleave ways (R270)
  ⟨0x1640, 8, 0x02, 1, 8, .ro, 1, 0, 0, .any, false⟩, -- Tile capacity (R270)
  ⟨0x1640, 8, 0x03, 1, 8, .ro, 1, 0, 0, .any, false⟩] -- Global base (R270)

/-- Objects of index 0x1700. -/
def queueFabricRows : List ObjRow := [
  ⟨0x1700, 1, 0x01, 1, 4, .rw, 1, 0, 0, .le 262143, false⟩, -- Queue select (R274)
  ⟨0x1700, 1, 0x02, 1, 4, .ro, 1, 0, 0, .any, false⟩, -- Queues enabled (R274)
  ⟨0x1700, 1, 0x03, 1, 8, .ro, 1, 0, 0, .any, false⟩, -- Queue resets (R274)
  ⟨0x1700, 1, 0x04, 1, 8, .ro, 1, 0, 0, .any, false⟩] -- Parity errors (R274)

/-- Objects of index 0x1701. -/
def queueRows : List ObjRow := [
  ⟨0x1701, 1, 0x01, 1, 1, .rws, 1, 0, 3, .any, false⟩, -- Class (R274)
  ⟨0x1701, 1, 0x02, 1, 1, .rws, 1, 0, 0, .any, false⟩, -- Placement (R274)
  ⟨0x1701, 1, 0x03, 1, 8, .rws, 1, 0, 0, .any, false⟩, -- Body base (R274)
  ⟨0x1701, 1, 0x04, 1, 4, .rws, 1, 0, 0, .any, false⟩, -- Size (R274)
  ⟨0x1701, 1, 0x05, 1, 1, .rws, 1, 0, 0, .any, false⟩, -- Consumer (R274)
  ⟨0x1701, 1, 0x06, 1, 1, .rws, 1, 0, 1, .any, false⟩, -- Credit mode (R274)
  ⟨0x1701, 1, 0x07, 1, 1, .rws, 1, 0, 0, .le 1, false⟩, -- Host producer (R274)
  ⟨0x1701, 1, 0x08, 1, 4, .rws, 1, 0, 0, .any, false⟩, -- Level (R274)
  ⟨0x1701, 1, 0x0E, 1, 2, .ro, 1, 0, 0, .any, false⟩, -- Queue commit status (R274)
  ⟨0x1701, 1, 0x0F, 1, 1, .wo, 1, 0, 0, .one 1, false⟩, -- Queue commit (R274)
  ⟨0x1701, 1, 0x10, 1, 8, .ro, 1, 0, 0, .any, false⟩, -- Write pointer (R274)
  ⟨0x1701, 1, 0x11, 1, 8, .ro, 1, 0, 0, .any, false⟩, -- Read pointer (R274)
  ⟨0x1701, 1, 0x12, 1, 4, .ro, 1, 0, 0, .any, false⟩, -- Resident (R274)
  ⟨0x1701, 1, 0x13, 1, 4, .ro, 1, 0, 0, .any, false⟩, -- Credits outstanding (R274)
  ⟨0x1701, 1, 0x14, 1, 1, .ro, 1, 0, 0, .any, false⟩, -- Queue state (R274)
  ⟨0x1701, 1, 0x15, 1, 1, .ro, 1, 0, 0, .any, false⟩, -- Packet open (R274)
  ⟨0x1701, 1, 0x16, 1, 8, .ro, 1, 0, 0, .any, false⟩, -- Entries enqueued (R274)
  ⟨0x1701, 1, 0x17, 1, 8, .ro, 1, 0, 0, .any, false⟩, -- Entries dequeued (R274)
  ⟨0x1701, 1, 0x18, 1, 8, .ro, 1, 0, 0, .any, false⟩, -- Entries flushed (R274)
  ⟨0x1701, 1, 0x19, 1, 8, .ro, 1, 0, 0, .any, false⟩, -- Credits issued (R274)
  ⟨0x1701, 1, 0x1A, 1, 8, .ro, 1, 0, 0, .any, false⟩, -- Credits consumed (R274)
  ⟨0x1701, 1, 0x1B, 1, 8, .ro, 1, 0, 0, .any, false⟩, -- Credits returned (R274)
  ⟨0x1701, 1, 0x1C, 1, 8, .ro, 1, 0, 0, .any, false⟩, -- Poisoned entries (R274)
  ⟨0x1701, 1, 0x1D, 1, 4, .ro, 1, 0, 0, .any, false⟩, -- Resets (R274)
  ⟨0x1701, 1, 0x1E, 1, 1, .rw, 1, 0, 0, .one 0, false⟩, -- Level crossed (R274)
  ⟨0x1701, 1, 0x1F, 1, 1, .ro, 1, 0, 0, .any, false⟩, -- Last reset cause (R274)
  ⟨0x1701, 1, 0x20, 1, 4, .wo, 1, 0, 0, .any, false⟩, -- Credit grant (R274)
  ⟨0x1701, 1, 0x21, 1, 4, .wo, 1, 0, 0, .any, false⟩, -- Dequeue (R274)
  ⟨0x1701, 1, 0x22, 1, 4, .wo, 1, 0, 0, .le 0x1FFFFFF, false⟩, -- Enqueue (R274)
  ⟨0x1701, 1, 0x23, 1, 1, .wo, 1, 0, 0, .one 1, false⟩, -- Flush (R274)
  ⟨0x1701, 1, 0x24, 1, 4, .ro, 1, 0, 0, .any, false⟩] -- Last grant accepted (R274)

/-- Objects of index 0x1710. -/
def queueTileRows : List ObjRow := [
  ⟨0x1710, 8, 0x01, 1, 64, .ro, 1, 0, 0, .any, false⟩] -- Level summary (R274)

/-- Objects of index 0x1780. -/
def ledgerRows : List ObjRow := [
  ⟨0x1780, 1, 0x01, 1, 1, .ro, 1, 0, 3, .any, false⟩, -- Guarantee conditions (R292)
  ⟨0x1780, 1, 0x02, 1, 1, .wo, 1, 0, 0, .one 1, false⟩, -- Clear memory condition (R292)
  ⟨0x1780, 1, 0x03, 1, 4, .ro, 1, 0, 0, .any, false⟩, -- Ledger faults (R292)
  ⟨0x1780, 1, 0x04, 1, 48, .ro, 1, 0, 0, .any, false⟩, -- First fault (R292)
  ⟨0x1780, 1, 0x05, 1, 48, .ro, 1, 0, 0, .any, false⟩, -- Last fault (R292)
  ⟨0x1780, 1, 0x06, 1, 8, .ro, 1, 0, 0, .any, false⟩, -- Suspended invariants (R292)
  ⟨0x1780, 1, 0x07, 1, 1, .wo, 2, 0, 0, .one 1, false⟩, -- Resume (R292)
  ⟨0x1780, 1, 0x08, 1, 520, .ro, 1, 0, 0, .any, false⟩, -- Baselines (R292)
  ⟨0x1780, 1, 0x09, 1, 8, .ro, 1, 0, 0, .any, false⟩] -- Checks performed (R292)

/-- Objects of index 0x1810. -/
def headSetupRows : List ObjRow := [
  ⟨0x1810, 2, 0x01, 1, 1, .rws, 1, 0, 0, .any, false⟩, -- Output mode (R329)
  ⟨0x1810, 2, 0x02, 1, 1, .rws, 1, 0, 0, .any, false⟩, -- Base quad (R329)
  ⟨0x1810, 2, 0x03, 1, 1, .rws, 1, 0, 8, .any, false⟩, -- Quad count (R329)
  ⟨0x1810, 2, 0x04, 1, 1, .rws, 1, 0, 24, .any, false⟩, -- Output width (R329)
  ⟨0x1810, 2, 0x05, 1, 1, .rws, 1, 0, 24, .any, false⟩, -- Serial data lanes (R329)
  ⟨0x1810, 2, 0x06, 1, 1, .rws, 1, 0, 15, .any, false⟩, -- Sideband enables (R329)
  ⟨0x1810, 2, 0x07, 1, 1, .rws, 1, 0, 0, .any, false⟩, -- Sync polarity (R329)
  ⟨0x1810, 2, 0x08, 1, 4, .rws, 1, 0, 10000, .any, false⟩, -- Pixel period (R329)
  ⟨0x1810, 2, 0x09, 1, 4, .rws, 1, 0, 1000, .any, false⟩, -- Lane UI (R329)
  ⟨0x1810, 2, 0x0A, 1, 8, .rws, 1, 0, 22518135578952960, .any, false⟩, -- Horizontal timing (R329)
  ⟨0x1810, 2, 0x0B, 1, 8, .rws, 1, 0, 9007220729775040, .any, false⟩, -- Vertical timing (R329)
  ⟨0x1810, 2, 0x0C, 1, 1, .rws, 1, 0, 3, .any, false⟩, -- Base format (R329)
  ⟨0x1810, 2, 0x0D, 1, 1, .rws, 1, 0, 0, .any, false⟩, -- Overlay format (R329)
  ⟨0x1810, 2, 0x0E, 1, 4, .rws, 1, 0, 5120, .any, false⟩, -- Base stride (R329)
  ⟨0x1810, 2, 0x0F, 1, 4, .rws, 1, 0, 0, .any, false⟩, -- Overlay stride (R329)
  ⟨0x1810, 2, 0x10, 1, 4, .rws, 1, 0, 0, .any, false⟩, -- Blanking word (R329)
  ⟨0x1810, 2, 0x11, 1, 1, .rws, 1, 0, 0, .le 1, false⟩, -- Lock to head 0 (R329)
  ⟨0x1810, 2, 0x1E, 1, 2, .ro, 1, 0, 0, .any, false⟩, -- Setup commit status (R329)
  ⟨0x1810, 2, 0x1F, 1, 1, .wo, 1, 0, 0, .one 1, false⟩, -- Setup commit (R329)
  ⟨0x1810, 2, 0x20, 1, 1, .wo, 1, 0, 0, .rng 1 2, false⟩, -- Enable (R329)
  ⟨0x1810, 2, 0x21, 1, 1, .ro, 1, 0, 0, .any, false⟩, -- Head state (R329)
  ⟨0x1810, 2, 0x22, 1, 1, .ro, 1, 0, 0, .any, false⟩, -- Enable refusal reason (R329)
  ⟨0x1810, 2, 0x23, 1, 2, .rw, 1, 0, 65535, .any, false⟩, -- Line match (R329)
  ⟨0x1810, 2, 0x24, 1, 2, .ro, 1, 0, 0, .any, false⟩, -- Granted slots (R329)
  ⟨0x1810, 2, 0x25, 1, 2, .ro, 1, 0, 0, .any, false⟩] -- Current line (R329)

/-- Objects of index 0x1830. -/
def headFrameRows : List ObjRow := [
  ⟨0x1830, 2, 0x01, 1, 8, .rws, 1, 0, 0, .any, false⟩, -- Base address (R329)
  ⟨0x1830, 2, 0x02, 1, 8, .rws, 1, 0, 0, .any, false⟩, -- Overlay address (R329)
  ⟨0x1830, 2, 0x03, 1, 1, .rws, 1, 0, 0, .le 1, false⟩, -- Overlay enable (R329)
  ⟨0x1830, 2, 0x04, 1, 8, .rws, 1, 0, 0, .any, false⟩, -- Overlay rectangle (R329)
  ⟨0x1830, 2, 0x05, 1, 1, .rws, 1, 0, 255, .any, false⟩, -- Global alpha (R329)
  ⟨0x1830, 2, 0x0E, 1, 2, .ro, 1, 0, 0, .any, false⟩, -- Frame commit status (R329)
  ⟨0x1830, 2, 0x0F, 1, 1, .wo, 1, 0, 0, .one 1, false⟩] -- Frame commit (R329)

/-- Objects of index 0x1850. -/
def headStatusRows : List ObjRow := [
  ⟨0x1850, 2, 0x01, 1, 8, .ro, 1, 0, 0, .any, false⟩, -- Frame count (R329)
  ⟨0x1850, 2, 0x02, 1, 32, .ro, 1, 0, 0, .any, false⟩, -- Last frame record (R329)
  ⟨0x1850, 2, 0x03, 1, 4, .ro, 1, 0, 0, .any, false⟩, -- CRC mismatches (R329)
  ⟨0x1850, 2, 0x04, 1, 4, .ro, 1, 0, 0, .any, false⟩, -- Underruns (R329)
  ⟨0x1850, 2, 0x05, 1, 1, .ro, 1, 0, 0, .any, false⟩] -- Leases held (R329)

/-- Objects of index 0x1870. -/
def leaseRows : List ObjRow := [
  ⟨0x1870, 1, 0x01, 1, 8, .ro, 1, 0, 0, .any, false⟩, -- Lease tokens issued (R329)
  ⟨0x1870, 1, 0x02, 1, 8, .ro, 1, 0, 0, .any, false⟩, -- Lease tokens retired (R329)
  ⟨0x1870, 1, 0x03, 1, 8, .ro, 1, 0, 0, .any, false⟩, -- Held bulk writes (R329)
  ⟨0x1870, 1, 0x04, 1, 4, .ro, 1, 0, 0, .any, false⟩] -- Bytes held now (R329)

/-- Objects of index 0x2000. -/
def channelRows : List ObjRow := [
  ⟨0x2000, 512, 0x01, 1, 1, .rws, 1, 0, 1, .any, false⟩, -- Termination mode (R90)
  ⟨0x2000, 512, 0x02, 1, 1, .rws, 1, 0, 0, .any, false⟩, -- PPMU mode (R90)
  ⟨0x2000, 512, 0x03, 1, 1, .rws, 1, 0, 4, .any, false⟩, -- PPMU current range (R90)
  ⟨0x2000, 512, 0x04, 1, 4, .rws, 1, 0, 0, .any, true⟩, -- PPMU force current (R90)
  ⟨0x2000, 512, 0x05, 1, 4, .rws, 1, 0, 600000, .any, true⟩, -- PPMU voltage clamp high (R90)
  ⟨0x2000, 512, 0x06, 1, 4, .rws, 1, 0, 4294817296, .any, true⟩, -- PPMU voltage clamp low (R90)
  ⟨0x2000, 512, 0x07, 1, 4, .rws, 1, 0, 8388607, .any, true⟩, -- PPMU current clamp (R90)
  ⟨0x2000, 512, 0x08, 1, 1, .rws, 1, 0, 0, .any, false⟩, -- PPMU ADC rate (R90)
  ⟨0x2000, 512, 0x09, 1, 1, .rws, 1, 0, 0, .le 1, false⟩, -- Monitor enable (R90)
  ⟨0x2000, 512, 0x0A, 1, 4, .rws, 1, 0, 4294817296, .any, true⟩, -- Monitor low threshold (R90)
  ⟨0x2000, 512, 0x0B, 1, 4, .rws, 1, 0, 600000, .any, true⟩, -- Monitor high threshold (R90)
  ⟨0x2000, 512, 0x0C, 1, 4, .rws, 1, 0, 0, .any, true⟩, -- Monitor low hysteresis (R90)
  ⟨0x2000, 512, 0x0D, 1, 4, .rws, 1, 0, 0, .any, true⟩, -- Monitor high hysteresis (R90)
  ⟨0x2000, 512, 0x0E, 1, 1, .rws, 1, 0, 0, .any, false⟩, -- Monitor INIT (R90)
  ⟨0x2000, 512, 0x10, 1, 4, .ro, 1, 0, 0, .any, false⟩, -- PPMU voltage result (R90)
  ⟨0x2000, 512, 0x11, 1, 4, .ro, 1, 0, 0, .any, false⟩, -- PPMU current result (R90)
  ⟨0x2000, 512, 0x12, 1, 4, .ro, 1, 0, 0, .any, false⟩, -- PPMU sample count (R90)
  ⟨0x2000, 512, 0x13, 1, 1, .ro, 1, 0, 0, .any, false⟩, -- PPMU clamp status (R90)
  ⟨0x2000, 512, 0x14, 1, 1, .ro, 1, 0, 3, .any, false⟩, -- Monitor state (R90)
  ⟨0x2000, 512, 0x15, 1, 4, .ro, 1, 0, 0, .any, false⟩, -- Monitor alarm count (R90)
  ⟨0x2000, 512, 0x16, 1, 1, .wo, 1, 0, 0, .rng 1 2, false⟩, -- Monitor self-check request (R90)
  ⟨0x2000, 512, 0x17, 1, 1, .ro, 1, 0, 0, .any, false⟩, -- Monitor self-check result (R90)
  ⟨0x2000, 512, 0x18, 1, 8, .ro, 1, 0, 0, .any, false⟩, -- Drive-suppressed count (R90)
  ⟨0x2000, 512, 0x19, 1, 4, .ro, 1, 0, 0, .any, false⟩, -- Drive deskew (R106)
  ⟨0x2000, 512, 0x1A, 1, 4, .ro, 1, 0, 0, .any, false⟩, -- Compare deskew (R106)
  ⟨0x2000, 512, 0x1B, 1, 1, .rw, 1, 0, 0, .any, false⟩, -- TMU mode (R117)
  ⟨0x2000, 512, 0x1C, 1, 1, .rw, 1, 0, 0, .le 2, false⟩, -- Start source (R117)
  ⟨0x2000, 512, 0x1D, 1, 1, .rw, 1, 0, 0, .le 3, false⟩, -- Start threshold select (R117)
  ⟨0x2000, 512, 0x1E, 1, 1, .rw, 1, 0, 0, .le 1, false⟩, -- Start slope (R117)
  ⟨0x2000, 512, 0x1F, 1, 1, .rw, 1, 0, 0, .any, false⟩, -- Start trigger line (R117)
  ⟨0x2000, 512, 0x20, 1, 1, .rw, 1, 0, 0, .le 2, false⟩, -- Stop source (R117)
  ⟨0x2000, 512, 0x21, 1, 1, .rw, 1, 0, 0, .le 3, false⟩, -- Stop threshold select (R117)
  ⟨0x2000, 512, 0x22, 1, 1, .rw, 1, 0, 0, .le 1, false⟩, -- Stop slope (R117)
  ⟨0x2000, 512, 0x23, 1, 1, .rw, 1, 0, 0, .any, false⟩, -- Stop trigger line (R117)
  ⟨0x2000, 512, 0x24, 1, 2, .rw, 1, 0, 1, .any, false⟩, -- Stop edge count (R117)
  ⟨0x2000, 512, 0x25, 1, 4, .rw, 1, 0, 0, .any, true⟩, -- Measure level M0 (R117)
  ⟨0x2000, 512, 0x26, 1, 4, .rw, 1, 0, 0, .any, true⟩, -- Measure level M1 (R117)
  ⟨0x2000, 512, 0x27, 1, 4, .rw, 1, 0, 0, .any, false⟩, -- Timeout (R117)
  ⟨0x2000, 512, 0x28, 1, 4, .rw, 1, 0, 1000000, .any, false⟩, -- Gate time (R117)
  ⟨0x2000, 512, 0x29, 1, 4, .rw, 1, 0, 1, .any, false⟩, -- Batch count (R117)
  ⟨0x2000, 512, 0x2A, 1, 1, .wo, 1, 0, 0, .rng 1 2, false⟩, -- Arm (R117)
  ⟨0x2000, 512, 0x2B, 1, 1, .ro, 1, 0, 0, .any, false⟩, -- TMU state (R117)
  ⟨0x2000, 512, 0x2C, 1, 32, .ro, 1, 0, 0, .any, false⟩, -- Last result (R117)
  ⟨0x2000, 512, 0x2D, 1, 4, .ro, 1, 0, 0, .any, false⟩, -- Batch results (R117)
  ⟨0x2000, 512, 0x2F, 1, 4, .ro, 1, 0, 0, .any, false⟩, -- Frequency (R117)
  ⟨0x2000, 512, 0x30, 1, 1, .ro, 1, 0, 0, .any, false⟩] -- Arm refusal reason (R117)

/-- Objects of index 0x2200. -/
def quadRows : List ObjRow := [
  ⟨0x2200, 128, 0x01, 16, 96, .rws, 1, 0, 0, .any, true⟩, -- Level set 0–15 (R77)
  ⟨0x2200, 128, 0x11, 1, 2, .rws, 1, 0, 8000, .any, false⟩, -- Drive-rate ceiling (R77)
  ⟨0x2200, 128, 0x12, 1, 1, .rws, 1, 0, 0, .any, false⟩, -- Host set selection (R77)
  ⟨0x2200, 128, 0x13, 1, 4, .rws, 1, 0, 250, .any, false⟩, -- Monitor tick divisor (R77)
  ⟨0x2200, 128, 0x14, 1, 1, .rw, 1, 0, 0, .le 1, false⟩, -- Level commit strobe mode (R77)
  ⟨0x2200, 128, 0x15, 1, 1, .rw, 1, 0, 0, .le 1, false⟩, -- Broadcast strobe enable (R77)
  ⟨0x2200, 128, 0x16, 1, 1, .wo, 1, 0, 0, .one 1, false⟩, -- Level commit (R77)
  ⟨0x2200, 128, 0x17, 1, 2, .ro, 1, 0, 0, .any, false⟩, -- Level commit status (R77)
  ⟨0x2200, 128, 0x18, 1, 1, .ro, 1, 0, 0, .any, false⟩, -- Selected level set (R77)
  ⟨0x2200, 128, 0x19, 1, 4, .ro, 1, 0, 0, .any, false⟩, -- Strobe count (R77)
  ⟨0x2200, 128, 0x1A, 1, 8, .ro, 1, 0, 0, .any, false⟩, -- Last strobe time (R77)
  ⟨0x2200, 128, 0x1B, 1, 1, .wo, 1, 0, 0, .one 1, false⟩, -- Timing commit (R106)
  ⟨0x2200, 128, 0x1C, 1, 2, .ro, 1, 0, 0, .any, false⟩, -- Timing commit status (R106)
  ⟨0x2200, 128, 0x1D, 1, 1, .ro, 1, 0, 0, .any, false⟩, -- Selected timing set (R106)
  ⟨0x2200, 128, 0x1E, 1, 32, .rws, 1, 0, 0, .any, false⟩, -- Fixture delays (R106)
  ⟨0x2200, 128, 0x20, 64, 116, .rws, 1, 0, 10000, .any, false⟩, -- Timing set 0–63 (R106)
  ⟨0x2200, 128, 0x60, 1, 1, .ro, 1, 0, 0, .any, false⟩, -- Sequencer state (R153)
  ⟨0x2200, 128, 0x61, 1, 1, .ro, 1, 0, 0, .any, false⟩, -- Halt reason (R153)
  ⟨0x2200, 128, 0x62, 1, 1, .ro, 1, 0, 0, .any, false⟩, -- Halt code (R153)
  ⟨0x2200, 128, 0x63, 1, 4, .ro, 1, 0, 0, .any, false⟩, -- Committed block (R153)
  ⟨0x2200, 128, 0x64, 1, 8, .ro, 1, 0, 0, .any, false⟩, -- Vectors committed (R153)
  ⟨0x2200, 128, 0x65, 1, 8, .ro, 1, 0, 0, .any, false⟩, -- Descriptor offset (R153)
  ⟨0x2200, 128, 0x66, 1, 1, .ro, 1, 0, 0, .any, false⟩, -- Loop depth (R153)
  ⟨0x2200, 128, 0x67, 1, 1, .ro, 1, 0, 0, .any, false⟩, -- Call depth (R153)
  ⟨0x2200, 128, 0x68, 1, 64, .rw, 1, 0, 0, .any, false⟩, -- Counters (R153)
  ⟨0x2200, 128, 0x69, 1, 1, .rw, 1, 0, 0, .any, false⟩, -- Flags (R153)
  ⟨0x2200, 128, 0x6A, 1, 1, .ro, 1, 0, 0, .any, false⟩, -- Condition inputs (R153)
  ⟨0x2200, 128, 0x6B, 1, 1, .rw, 1, 0, 0, .le 15, false⟩, -- CAPT arm mask (R153)
  ⟨0x2200, 128, 0x6C, 1, 1, .ro, 1, 0, 0, .any, false⟩, -- Event jump status (R153)
  ⟨0x2200, 128, 0x6D, 1, 4, .ro, 1, 0, 0, .any, false⟩, -- Event jumps taken (R153)
  ⟨0x2200, 128, 0x6E, 1, 4, .ro, 1, 0, 0, .any, false⟩, -- Event jump requests discarded (R153)
  ⟨0x2200, 128, 0x6F, 1, 4, .ro, 1, 0, 0, .any, false⟩, -- Control-store CRC (R153)
  ⟨0x2200, 128, 0x70, 1, 2, .ro, 1, 0, 0, .any, false⟩, -- Control-store loads (R153)
  ⟨0x2200, 128, 0x71, 1, 4, .ro, 1, 0, 0, .any, false⟩, -- Control-store parity errors (R153)
  ⟨0x2200, 128, 0x72, 1, 4, .ro, 1, 0, 0, .any, false⟩, -- Issue underruns (R153)
  ⟨0x2200, 128, 0x73, 1, 4, .ro, 1, 0, 0, .any, false⟩, -- Last start latency (R153)
  ⟨0x2200, 128, 0x74, 1, 8, .ro, 1, 0, 0, .any, false⟩, -- Pattern run time (R153)
  ⟨0x2200, 128, 0x75, 1, 1, .ro, 1, 0, 255, .any, false⟩, -- Faulting quad (R153)
  ⟨0x2200, 128, 0x76, 1, 1, .ro, 1, 0, 0, .any, false⟩, -- Payload error cause (R181)
  ⟨0x2200, 128, 0x77, 1, 1, .ro, 1, 0, 0, .any, false⟩, -- Underrun cause (R181)
  ⟨0x2200, 128, 0x78, 1, 4, .ro, 1, 0, 0, .any, false⟩, -- Stream buffer fill (R181)
  ⟨0x2200, 128, 0x79, 1, 8, .ro, 1, 0, 0, .any, false⟩, -- Stream bytes fetched (R181)
  ⟨0x2200, 128, 0x7A, 1, 4, .ro, 1, 0, 0, .any, false⟩, -- Redirects (R181)
  ⟨0x2200, 128, 0x7B, 1, 8, .ro, 1, 0, 0, .any, false⟩, -- Squashed vectors (R181)
  ⟨0x2200, 128, 0x7C, 1, 4, .ro, 1, 0, 0, .any, false⟩, -- Resident image size (R181)
  ⟨0x2200, 128, 0x7D, 1, 4, .ro, 1, 0, 0, .any, false⟩, -- Capture area in use (R181)
  ⟨0x2200, 128, 0x7E, 1, 2, .ro, 1, 0, 0, .any, false⟩, -- Run-ahead (R181)
  ⟨0x2200, 128, 0x7F, 1, 8, .ro, 1, 0, 0, .any, false⟩, -- Hold vectors (R181)
  ⟨0x2200, 128, 0xE0, 16, 192, .rw, 1, 0, 0, .any, false⟩] -- Peony dictionary (R181)

/-- Objects of index 0x2280. -/
def clusterRows : List ObjRow := [
  ⟨0x2280, 32, 0x01, 1, 1, .ro, 1, 0, 0, .any, false⟩, -- Sites hosted (R212)
  ⟨0x2280, 32, 0x02, 4, 1, .ro, 1, 0, 255, .any, false⟩, -- Site led by quad 4c + k (R212)
  ⟨0x2280, 32, 0x10, 16, 8, .ro, 1, 0, 0, .any, false⟩, -- Channel fail count (R212)
  ⟨0x2280, 32, 0x40, 1, 1, .rws, 1, 0, 1, .any, false⟩, -- Acquisition mode (R245)
  ⟨0x2280, 32, 0x41, 16, 2, .rws, 1, 0, 0, .any, false⟩, -- Input 0–15 (R245)
  ⟨0x2280, 32, 0x51, 1, 1, .rws, 1, 0, 0, .any, false⟩, -- Sample rate (R245)
  ⟨0x2280, 32, 0x52, 1, 1, .rws, 1, 0, 0, .any, false⟩, -- Trigger source (R245)
  ⟨0x2280, 32, 0x53, 1, 2, .rws, 1, 0, 0, .any, false⟩, -- Trigger parameter (R245)
  ⟨0x2280, 32, 0x54, 1, 8, .rws, 1, 0, 0, .any, false⟩, -- Trigger level (R245)
  ⟨0x2280, 32, 0x55, 1, 2, .rws, 1, 0, 0, .any, false⟩, -- Pre-trigger count (R245)
  ⟨0x2280, 32, 0x56, 1, 4, .rws, 1, 0, 1000, .any, false⟩, -- Post-trigger count (R245)
  ⟨0x2280, 32, 0x57, 1, 4, .rws, 1, 0, 1, .any, false⟩, -- Capture count (R245)
  ⟨0x2280, 32, 0x58, 1, 4, .rws, 1, 0, 1000, .any, false⟩, -- Auto timeout (R245)
  ⟨0x2280, 32, 0x59, 1, 1, .rws, 1, 0, 1, .le 1, false⟩, -- Record samples (R245)
  ⟨0x2280, 32, 0x5A, 1, 4, .rws, 1, 0, 4294967295, .any, false⟩, -- Acquisition queue (R245)
  ⟨0x2280, 32, 0x5B, 1, 384, .rws, 1, 0, 0, .any, false⟩, -- Histogram setup (R245)
  ⟨0x2280, 32, 0x5C, 1, 504, .rws, 1, 0, 0, .any, false⟩, -- Histogram edge table (R245)
  ⟨0x2280, 32, 0x5D, 1, 1, .rws, 1, 0, 2, .any, false⟩, -- Event enables (R245)
  ⟨0x2280, 32, 0x5E, 1, 1, .wo, 1, 0, 0, .one 1, false⟩, -- Acquisition commit (R245)
  ⟨0x2280, 32, 0x5F, 1, 2, .ro, 1, 0, 0, .any, false⟩, -- Acquisition commit status (R245)
  ⟨0x2280, 32, 0x60, 1, 1, .ro, 1, 0, 0, .any, false⟩, -- Acquisition state (R245)
  ⟨0x2280, 32, 0x61, 1, 1, .wo, 1, 0, 0, .rng 1 2, false⟩, -- Arm (R245)
  ⟨0x2280, 32, 0x62, 1, 1, .wo, 1, 0, 0, .one 1, false⟩, -- Host trigger (R245)
  ⟨0x2280, 32, 0x63, 1, 1, .ro, 1, 0, 0, .any, false⟩, -- Arm refusal reason (R245)
  ⟨0x2280, 32, 0x64, 1, 4, .ro, 1, 0, 0, .any, false⟩, -- Captures completed (R245)
  ⟨0x2280, 32, 0x65, 1, 4, .ro, 1, 0, 0, .any, false⟩, -- Triggers missed (R245)
  ⟨0x2280, 32, 0x66, 1, 4, .ro, 1, 0, 0, .any, false⟩, -- Forced triggers (R245)
  ⟨0x2280, 32, 0x67, 1, 8, .ro, 1, 0, 0, .any, false⟩, -- Admitted demand (R245)
  ⟨0x2280, 32, 0x68, 1, 2, .ro, 1, 0, 0, .any, false⟩, -- Admitted slots (R245)
  ⟨0x2280, 32, 0x69, 1, 4, .ro, 1, 0, 0, .any, false⟩, -- Entries per capture (R245)
  ⟨0x2280, 32, 0x6A, 1, 8, .ro, 1, 0, 0, .any, false⟩, -- Last trigger time (R245)
  ⟨0x2280, 32, 0x70, 16, 64, .ro, 1, 0, 0, .any, false⟩] -- Last reduction, input 0–15 (R245)

/-- Objects of index 0x22A0. -/
def tileRows : List ObjRow := [
  ⟨0x22A0, 8, 0x30, 1, 8, .rws, 1, 0, 506097522914230528, .any, false⟩, -- DPS gang map (R233)
  ⟨0x22A0, 8, 0x31, 1, 1, .wo, 1, 0, 0, .one 1, false⟩, -- Gang commit (R233)
  ⟨0x22A0, 8, 0x32, 1, 2, .ro, 1, 0, 0, .any, false⟩] -- Gang commit status (R233)

/-- Objects of index 0x2300. -/
def dpsRows : List ObjRow := [
  ⟨0x2300, 64, 0x01, 1, 1, .rws, 1, 0, 0, .any, false⟩, -- Mode (R233)
  ⟨0x2300, 64, 0x02, 1, 4, .rws, 1, 0, 0, .any, true⟩, -- Force voltage (R233)
  ⟨0x2300, 64, 0x03, 1, 1, .rws, 1, 0, 5, .any, false⟩, -- Current range (R233)
  ⟨0x2300, 64, 0x04, 1, 4, .rws, 1, 0, 8388607, .any, false⟩, -- Current clamp high (R233)
  ⟨0x2300, 64, 0x05, 1, 4, .rws, 1, 0, 4286578689, .any, false⟩, -- Current clamp low (R233)
  ⟨0x2300, 64, 0x06, 1, 4, .rws, 1, 0, 1000, .any, false⟩, -- Ramp rate (R233)
  ⟨0x2300, 64, 0x07, 1, 4, .rws, 1, 0, 500, .any, false⟩, -- Settle band (R233)
  ⟨0x2300, 64, 0x08, 1, 1, .rws, 1, 0, 0, .any, false⟩, -- ADC rate (R233)
  ⟨0x2300, 64, 0x09, 1, 1, .rws, 1, 0, 0, .any, false⟩, -- Shutdown rank (R233)
  ⟨0x2300, 64, 0x0A, 1, 1, .rws, 1, 0, 0, .any, false⟩, -- Alarm action (R233)
  ⟨0x2300, 64, 0x0B, 1, 1, .rws, 1, 0, 0, .le 1, false⟩, -- Voltage monitor enable (R233)
  ⟨0x2300, 64, 0x0C, 1, 4, .rws, 1, 0, 4294867296, .any, true⟩, -- Voltage monitor low threshold (R233)
  ⟨0x2300, 64, 0x0D, 1, 4, .rws, 1, 0, 700000, .any, true⟩, -- Voltage monitor high threshold (R233)
  ⟨0x2300, 64, 0x0E, 1, 4, .rws, 1, 0, 0, .any, true⟩, -- Voltage monitor low hysteresis (R233)
  ⟨0x2300, 64, 0x0F, 1, 4, .rws, 1, 0, 0, .any, true⟩, -- Voltage monitor high hysteresis (R233)
  ⟨0x2300, 64, 0x10, 1, 1, .rws, 1, 0, 0, .any, false⟩, -- Voltage monitor INIT (R233)
  ⟨0x2300, 64, 0x11, 1, 1, .rws, 1, 0, 0, .le 1, false⟩, -- Current monitor enable (R233)
  ⟨0x2300, 64, 0x12, 1, 4, .rws, 1, 0, 4286578689, .any, false⟩, -- Current monitor low threshold (R233)
  ⟨0x2300, 64, 0x13, 1, 4, .rws, 1, 0, 8388607, .any, false⟩, -- Current monitor high threshold (R233)
  ⟨0x2300, 64, 0x14, 1, 4, .rws, 1, 0, 0, .any, false⟩, -- Current monitor low hysteresis (R233)
  ⟨0x2300, 64, 0x15, 1, 4, .rws, 1, 0, 0, .any, false⟩, -- Current monitor high hysteresis (R233)
  ⟨0x2300, 64, 0x16, 1, 1, .rws, 1, 0, 0, .any, false⟩, -- Current monitor INIT (R233)
  ⟨0x2300, 64, 0x17, 1, 4, .rws, 1, 0, 10, .any, false⟩, -- Monitor tick divisor (R233)
  ⟨0x2300, 64, 0x18, 1, 1, .wo, 1, 0, 0, .one 1, false⟩, -- DPS commit (R233)
  ⟨0x2300, 64, 0x19, 1, 2, .ro, 1, 0, 0, .any, false⟩, -- DPS commit status (R233)
  ⟨0x2300, 64, 0x20, 1, 4, .ro, 1, 0, 0, .any, false⟩, -- Voltage result (R233)
  ⟨0x2300, 64, 0x21, 1, 4, .ro, 1, 0, 0, .any, false⟩, -- Current result (R233)
  ⟨0x2300, 64, 0x22, 1, 4, .ro, 1, 0, 0, .any, false⟩, -- Sample count (R233)
  ⟨0x2300, 64, 0x23, 1, 1, .ro, 1, 0, 0, .any, false⟩, -- Output state (R233)
  ⟨0x2300, 64, 0x24, 1, 1, .rw, 1, 0, 0, .one 0, false⟩, -- Alarm cause (R233)
  ⟨0x2300, 64, 0x25, 1, 1, .ro, 1, 0, 3, .any, false⟩, -- Voltage monitor state (R233)
  ⟨0x2300, 64, 0x26, 1, 1, .ro, 1, 0, 3, .any, false⟩, -- Current monitor state (R233)
  ⟨0x2300, 64, 0x27, 1, 4, .ro, 1, 0, 0, .any, false⟩, -- Alarm count (R233)
  ⟨0x2300, 64, 0x28, 1, 1, .wo, 1, 0, 0, .rng 1 4, false⟩, -- Monitor self-check request (R233)
  ⟨0x2300, 64, 0x29, 1, 1, .ro, 1, 0, 0, .any, false⟩, -- Voltage self-check result (R233)
  ⟨0x2300, 64, 0x2A, 1, 1, .ro, 1, 0, 0, .any, false⟩, -- Current self-check result (R233)
  ⟨0x2300, 64, 0x2B, 1, 8, .ro, 1, 0, 0, .any, false⟩, -- Charge accumulator (R233)
  ⟨0x2300, 64, 0x2C, 1, 1, .wo, 1, 0, 0, .one 1, false⟩, -- Charge clear (R233)
  ⟨0x2300, 64, 0x2D, 1, 1, .ro, 1, 0, 0, .any, false⟩, -- Charge saturated (R233)
  ⟨0x2300, 64, 0x2E, 1, 1, .ro, 1, 0, 0, .any, false⟩, -- Sense status (R233)
  ⟨0x2300, 64, 0x2F, 1, 1, .ro, 1, 0, 1, .any, false⟩] -- Gang size (R233)

/-- Objects of index 0x2400. -/
def siteRows : List ObjRow := [
  ⟨0x2400, 128, 0x01, 1, 8, .rws, 1, 0, 0, .any, false⟩, -- Quad mask low (R15)
  ⟨0x2400, 128, 0x02, 1, 8, .rws, 1, 0, 0, .any, false⟩, -- Quad mask high (R15)
  ⟨0x2400, 128, 0x03, 1, 1, .ro, 1, 0, 255, .any, false⟩, -- Lead quad (R15)
  ⟨0x2400, 128, 0x04, 1, 1, .ro, 1, 0, 255, .any, false⟩, -- Host cluster (R15)
  ⟨0x2400, 128, 0x05, 1, 1, .ro, 1, 0, 0, .any, false⟩, -- Site state (R15)
  ⟨0x2400, 128, 0x06, 1, 1, .ro, 1, 0, 0, .any, false⟩, -- Tiles spanned (R15)
  ⟨0x2400, 128, 0x07, 1, 1, .rw, 1, 0, 32, .le 32, false⟩, -- Start source (R15)
  ⟨0x2400, 128, 0x0E, 1, 2, .ro, 1, 0, 0, .any, false⟩, -- Commit status (R15)
  ⟨0x2400, 128, 0x0F, 1, 1, .wo, 1, 0, 0, .one 1, false⟩, -- Commit (R15)
  ⟨0x2400, 128, 0x08, 1, 1, .rws, 1, 0, 0, .any, false⟩, -- Stall policy (R180)
  ⟨0x2400, 128, 0x09, 1, 4, .rws, 1, 0, 16384, .any, false⟩, -- Low-water level (R180)
  ⟨0x2400, 128, 0x0A, 1, 4, .rws, 1, 0, 8192, .any, false⟩, -- Stall level (R180)
  ⟨0x2400, 128, 0x0B, 1, 4, .rws, 1, 0, 24576, .any, false⟩, -- Resume level (R180)
  ⟨0x2400, 128, 0x0C, 1, 2, .rws, 1, 0, 65535, .any, false⟩, -- Overrun limit (R180)
  ⟨0x2400, 128, 0x10, 1, 4, .ro, 1, 0, 0, .any, false⟩, -- Stalls (R180)
  ⟨0x2400, 128, 0x11, 1, 8, .ro, 1, 0, 0, .any, false⟩, -- Stall time (R180)
  ⟨0x2400, 128, 0x12, 1, 8, .ro, 1, 0, 0, .any, false⟩, -- Last stall vector (R180)
  ⟨0x2400, 128, 0x13, 1, 4, .ro, 1, 0, 0, .any, false⟩, -- SPLICE matches (R180)
  ⟨0x2400, 128, 0x14, 1, 2, .ro, 1, 0, 0, .any, false⟩, -- Last overrun (R180)
  ⟨0x2400, 128, 0x15, 1, 2, .ro, 1, 0, 0, .any, false⟩, -- Largest overrun (R180)
  ⟨0x2400, 128, 0x16, 1, 4, .ro, 1, 0, 0, .any, false⟩, -- Mispredictions (R180)
  ⟨0x2400, 128, 0x17, 1, 8, .ro, 1, 0, 0, .any, false⟩, -- Conditional hold time (R180)
  ⟨0x2400, 128, 0x18, 1, 4, .rws, 1, 0, 0, .any, false⟩, -- Flow base (R211)
  ⟨0x2400, 128, 0x19, 1, 2, .rws, 1, 0, 0, .any, false⟩, -- Record count (R211)
  ⟨0x2400, 128, 0x1A, 1, 2, .rws, 1, 0, 0, .any, false⟩, -- Entry record (R211)
  ⟨0x2400, 128, 0x1B, 1, 2, .rws, 1, 0, 65535, .any, false⟩, -- Abort record (R211)
  ⟨0x2400, 128, 0x1C, 1, 4, .rws, 1, 0, 0, .any, false⟩, -- Result queue (R211)
  ⟨0x2400, 128, 0x1D, 1, 4, .rws, 1, 0, 4294967295, .any, false⟩, -- Fail queue (R211)
  ⟨0x2400, 128, 0x1E, 1, 8, .rws, 1, 0, 0, .any, false⟩, -- Fail limit (R211)
  ⟨0x2400, 128, 0x1F, 1, 4, .rws, 1, 0, 4096, .any, false⟩, -- Fail-log limit (R211)
  ⟨0x2400, 128, 0x20, 1, 4, .rws, 1, 0, 0, .any, false⟩, -- Step timeout (R211)
  ⟨0x2400, 128, 0x21, 1, 4, .rws, 1, 0, 0, .any, false⟩, -- Step limit (R211)
  ⟨0x2400, 128, 0x22, 1, 4, .rws, 1, 0, 0, .any, false⟩, -- Admission wait limit (R211)
  ⟨0x2400, 128, 0x23, 1, 2, .rws, 1, 0, 65535, .any, false⟩, -- Default bin (R211)
  ⟨0x2400, 128, 0x24, 1, 4, .rws, 1, 0, 0, .any, false⟩, -- Expected step count (R211)
  ⟨0x2400, 128, 0x31, 1, 1, .wo, 1, 0, 0, .one 1, false⟩, -- Abort (R211)
  ⟨0x2400, 128, 0x32, 1, 1, .ro, 1, 0, 0, .any, false⟩, -- Flow end reason (R211)
  ⟨0x2400, 128, 0x33, 1, 2, .ro, 1, 0, 0, .any, false⟩, -- Current record (R211)
  ⟨0x2400, 128, 0x34, 1, 4, .ro, 1, 0, 0, .any, false⟩, -- Steps executed (R211)
  ⟨0x2400, 128, 0x35, 1, 1, .ro, 1, 0, 0, .any, false⟩, -- Flow progress (R211)
  ⟨0x2400, 128, 0x36, 1, 8, .ro, 1, 0, 0, .any, false⟩, -- Flow position (R211)
  ⟨0x2400, 128, 0x37, 1, 8, .ro, 1, 0, 0, .any, false⟩, -- Site fail count (R211)
  ⟨0x2400, 128, 0x38, 1, 2, .ro, 1, 0, 65535, .any, false⟩, -- Current soft bin (R211)
  ⟨0x2400, 128, 0x39, 1, 1, .ro, 1, 0, 255, .any, false⟩, -- Current hard bin (R211)
  ⟨0x2400, 128, 0x3A, 1, 32, .ro, 1, 0, 0, .any, false⟩, -- First fail (R211)
  ⟨0x2400, 128, 0x3B, 1, 1, .wo, 1, 0, 0, .one 1, false⟩, -- First-fail re-arm (R211)
  ⟨0x2400, 128, 0x3C, 1, 8, .ro, 1, 0, 0, .any, false⟩, -- Fail records dropped (R211)
  ⟨0x2400, 128, 0x3D, 1, 4, .ro, 1, 0, 0, .any, false⟩, -- Starts ignored (R211)
  ⟨0x2400, 128, 0x3E, 1, 4, .ro, 1, 0, 0, .any, false⟩, -- Flow count (R211)
  ⟨0x2400, 128, 0x3F, 1, 64, .ro, 1, 0, 0, .any, false⟩, -- Last result (R211)
  ⟨0x2400, 128, 0x40, 1, 128, .ro, 1, 0, 0, .any, false⟩, -- Hard bin counts (R211)
  ⟨0x2400, 128, 0x42, 1, 4, .ro, 1, 0, 0, .any, false⟩, -- Last record error (R211)
  ⟨0x2400, 128, 0x43, 1, 1, .ro, 1, 0, 0, .any, false⟩] -- Site count saturated (R211)

/-- Objects of index 0x4000. -/
def violationRows : List ObjRow := [
  ⟨0x4000, 1, 0x01, 1, 4, .rw, 3, 3, 0, .one 0, false⟩, -- Violation count (R61)
  ⟨0x4000, 1, 0x02, 1, 4, .ro, 1, 3, 0, .any, false⟩] -- Last violation (R61)

/-- The rows that an index may belong to, chosen by the index ranges of 00_scope.md. -/
def rowsFor (ix : Nat) : List ObjRow :=
  if ix < 0x1240 then
    if 0x1000 ≤ ix ∧ ix < 0x1001 then identityRows
    else if 0x1100 ≤ ix ∧ ix < 0x1101 then ringRows
    else if 0x1200 ≤ ix ∧ ix < 0x1201 then bootRows
    else if 0x1210 ≤ ix ∧ ix < 0x1211 then fuseRows
    else if 0x1220 ≤ ix ∧ ix < 0x1221 then primacyRows
    else if 0x1230 ≤ ix ∧ ix < 0x1232 then coreRows
    else []
  else if ix < 0x1400 then
    if 0x1240 ≤ ix ∧ ix < 0x1241 then cspRows
    else if 0x1241 ≤ ix ∧ ix < 0x1245 then cspWindowRows
    else if 0x1250 ≤ ix ∧ ix < 0x1251 then sspRows
    else if 0x1260 ≤ ix ∧ ix < 0x1261 then microcodeRows
    else if 0x1300 ≤ ix ∧ ix < 0x1301 then thermalRows
    else if 0x1310 ≤ ix ∧ ix < 0x1318 then sensorRows
    else if 0x1320 ≤ ix ∧ ix < 0x1328 then powerRows
    else if 0x1380 ≤ ix ∧ ix < 0x1381 then railRows
    else if 0x1390 ≤ ix ∧ ix < 0x1391 then supplyRows
    else []
  else if ix < 0x1580 then
    if 0x1400 ≤ ix ∧ ix < 0x1401 then calibrationRows
    else if 0x1410 ≤ ix ∧ ix < 0x1418 then calTileRows
    else if 0x1420 ≤ ix ∧ ix < 0x1424 then calHistoryRows
    else if 0x1500 ≤ ix ∧ ix < 0x1501 then eventRows
    else if 0x1501 ≤ ix ∧ ix < 0x1502 then bankRows
    else if 0x1540 ≤ ix ∧ ix < 0x1550 then routeRows
    else if 0x1550 ≤ ix ∧ ix < 0x1560 then sourceCountRows
    else []
  else if ix < 0x1780 then
    if 0x1580 ≤ ix ∧ ix < 0x1588 then condMapRows
    else if 0x1600 ≤ ix ∧ ix < 0x1601 then memoryRows
    else if 0x1610 ≤ ix ∧ ix < 0x1620 then memChannelRows
    else if 0x1620 ≤ ix ∧ ix < 0x1640 then subchannelRows
    else if 0x1640 ≤ ix ∧ ix < 0x1648 then tileMemoryRows
    else if 0x1700 ≤ ix ∧ ix < 0x1701 then queueFabricRows
    else if 0x1701 ≤ ix ∧ ix < 0x1702 then queueRows
    else if 0x1710 ≤ ix ∧ ix < 0x1718 then queueTileRows
    else []
  else if ix < 0x2000 then
    if 0x1780 ≤ ix ∧ ix < 0x1781 then ledgerRows
    else if 0x1810 ≤ ix ∧ ix < 0x1812 then headSetupRows
    else if 0x1830 ≤ ix ∧ ix < 0x1832 then headFrameRows
    else if 0x1850 ≤ ix ∧ ix < 0x1852 then headStatusRows
    else if 0x1870 ≤ ix ∧ ix < 0x1871 then leaseRows
    else []
  else
    if 0x2000 ≤ ix ∧ ix < 0x2200 then channelRows
    else if 0x2200 ≤ ix ∧ ix < 0x2280 then quadRows
    else if 0x2280 ≤ ix ∧ ix < 0x22A0 then clusterRows
    else if 0x22A0 ≤ ix ∧ ix < 0x22A8 then tileRows
    else if 0x2300 ≤ ix ∧ ix < 0x2340 then dpsRows
    else if 0x2400 ≤ ix ∧ ix < 0x2480 then siteRows
    else if 0x4000 ≤ ix ∧ ix < 0x4001 then violationRows
    else []

/-- The row of subindex `sub` of index `ix`, if it is written there. -/
def findRow (ix sub : Nat) : Option ObjRow :=
  (rowsFor ix).find? fun r => decide (r.sub ≤ sub) && decide (sub < r.sub + r.count)

/-- What a subindex is: the count of subindices (R56), an object of a table, the active copy of a staged object at
its subindex + 0x80 (R59), or nothing. -/
inductive ObjKind where
  | highest
  | row (r : ObjRow)
  | active (r : ObjRow)
  | undefined
deriving DecidableEq, Repr

/-- What subindex `sub` of index `ix` is. An index inside an assigned range that no chapter gives an object (0x10FF, 0x4001) is
undefined, its subindex 0 included (DESIGN CHOICE, log entry 114: R10 calls unassigned indices so). -/
def objKind (ix sub : Nat) : ObjKind :=
  if (rowsFor ix).isEmpty then .undefined
  else if sub = 0 then .highest
  else match findRow ix sub with
    | some r => .row r
    | none =>
      if sub < 0x80 then .undefined
      else match findRow ix (sub - 0x80) with
        | some r => if r.access = .rws then .active r else .undefined
        | none => .undefined

/-- The highest defined subindex of an index (R56). -/
def highestSub (ix : Nat) : Nat :=
  (rowsFor ix).foldl (fun m r => max m (r.sub + r.count - 1 + (if r.access = .rws then 0x80 else 0))) 0

/-- Encoded size of an object in bytes (R56); 0 when it is not defined. -/
def objSize (ix sub : Nat) : Nat :=
  match objKind ix sub with
  | .highest => 1
  | .row r => r.size
  | .active r => r.size
  | .undefined => 0

/-! ## Keys of the register file

Key `index * 256 + sub` for an object; the SSP's copy of a per-port object lies `sspBase` above, the context of
queue q at `queueBase + 256 q`, the pending copy of a staged object (R59) `pendBase` above the object. -/

def sspBase : Nat := 2 ^ 24
def queueBase : Nat := 2 ^ 32
def pendBase : Nat := 2 ^ 40

/-- The key of an object. -/
def okey (ix sub : Nat) : Nat := ix * 256 + sub

/-- The key of an object of the context of queue `q` (R273, R274). -/
def qkey (q sub : Nat) : Nat := queueBase + q * 256 + sub

/-- The key of the active copy of a staged object (R59). -/
def akey (k : Nat) : Nat := k + 0x80

/-- The key of the pending copy of a staged object (R59). -/
def pkey (k : Nat) : Nat := k + pendBase

/-- The route record of a source at reset (R294): ring report for every source that is not reserved, FAULT_N for
EV002, EV003, EV006 and EV060. -/
def reservedSource (src : Nat) : Bool :=
  src == 7 || (27 ≤ src && src ≤ 31) || src == 63

def routeReset (src : Nat) : Nat :=
  ((if reservedSource src then 0 else 1) + (if src = 2 ∨ src = 3 ∨ src = 6 ∨ src = 60 then 2 else 0)) * 2 ^ 96

/-- The reset value at a key of the object range. -/
def objReset (ix sub : Nat) : Nat :=
  if 0x1540 ≤ ix ∧ ix < 0x1550 ∧ 1 ≤ sub ∧ sub ≤ 0x10 then routeReset ((ix - 0x1540) * 16 + sub - 1)
  else if 0x1640 ≤ ix ∧ ix < 0x1648 ∧ sub = 3 then (ix - 0x1640) * 2 ^ 36
  else match objKind ix sub with
    | .highest => highestSub ix
    | .row r => r.reset
    | .active r => r.reset
    | .undefined => 0

/-- What the register file holds at reset: each object's default, in every copy of it. The SSP holds OPERATOR while
the ring is not OPERATIONAL (R57); the ring port's role before ring join is OBSERVER (log entry 1). -/
def resetValue (k : Nat) : Nat :=
  if pendBase ≤ k then 0
  else if queueBase ≤ k then objReset 0x1701 (k % 256)
  else if sspBase ≤ k then
    (if k = sspBase + okey 0x1000 0x10 then 1 else objReset ((k - sspBase) / 256) (k % 256))
  else objReset (k / 256) (k % 256)

end Sys2Proof.Machine
end

