-- ==== Sys2Proof/Machine/State.lean ====
section
/-!
DEFINITION. The state of the GK-512: the object dictionary (every register the spec's tables name, under its
index and subindex), what stands behind the objects, the memories, the pins, and the queue of waiting commands.
-/
namespace Sys2Proof.Machine

/-- REFCLK as the Crocus domain sees it (R23, R26, R330). -/
inductive RefClk where
  | absent
  | present
  | lost
  | returning
deriving DecidableEq, Repr

/-- A bulk write accepted into an ingress buffer (R51). `stalled`: a lease holds it (R325). -/
structure Bulk where
  link : Link
  space : Nat
  tiles : Nat
  addr : Nat
  data : List Byte
  stalled : Bool
deriving DecidableEq, Repr

/-- A write that a frame holds until its FCS has been checked (R37). -/
inductive HeldWrite where
  | obj (ix sub v : Nat)
  | bulk (b : Bulk)
deriving DecidableEq, Repr

/-- What a device knows of the cyclic frame before the present one (R46). -/
inductive PrevCyclic where
  | none
  | met
  | missed
  | badFcs
deriving DecidableEq, Repr

/-- The ring (chapter 02). Of the frame that passes: the hop count it came with, the port it is processed from, the number of
its next datagram, whether its first was SYNC, whether a datagram has stopped the processing of those that follow (R33), the
writes held, what the FCS check found, the cycle of its end. What leaves: the frame, the port it leaves on, the last
datagram, the correction field of the last PTP Sync. Then the acknowledge of R46, the cycles of the last cyclic frame and the
last SYNC, the lock counts of R50, the ingress buffers (R51), the bulk writes whose bursts are in the write queues, by number, and
the last number given (R258), the datagrams completed from each port, the read buffer
(R54), for each port the role requested, the cycle in which its lockout ends and the
failures since its count saturated (R58), and the port mode in force at each link (R28). -/
structure RingState where
  hop : Nat
  link : Link
  position : Nat
  cyclic : Bool
  stopped : Bool
  held : List HeldWrite
  verdict : Option Bool
  frameEnd : Nat
  txLink : Option Link
  txFrame : List Byte
  txDatagram : Option Datagram
  txPtp : BitVec 64
  prevCyclic : PrevCyclic
  lastCyclic : Nat
  lastSync : Nat
  lockGood : Nat
  lockBad : Nat
  ingress : List Bulk
  queued : List (Nat × Bulk)
  bulkTag : Nat
  bulkDone : Nat × Nat
  readBase : Nat
  readSpace : Nat
  readLen : Nat
  readData : List Byte
  readPoison : List Nat
  rolePending : Option Nat × Option Nat
  lockoutEnd : Nat × Nat
  overFails : Nat × Nat
  portMode : Nat × Nat
deriving DecidableEq, Repr

def RingState.init : RingState :=
  { hop := 0, link := .up, position := 0, cyclic := false, stopped := false, held := [], verdict := none, frameEnd := 0,
    txLink := none, txFrame := [],
    txDatagram := none, txPtp := 0, prevCyclic := .none, lastCyclic := 0, lastSync := 0, lockGood := 0, lockBad := 0,
    ingress := [], queued := [], bulkTag := 0, bulkDone := (0, 0), readBase := 0, readSpace := 0, readLen := 0, readData := [], readPoison := [],
    rolePending := (none, none), lockoutEnd := (0, 0), overFails := (0, 0), portMode := (0, 0) }

/-- One raised occurrence of a source, with its cycle and ring time (R293), and the source's route record at that
moment (R294, R297). -/
structure Occurrence where
  src : Nat
  cycle : Nat
  time : Nat
  route : Nat
deriving DecidableEq, Repr

/-- A pending ring report (R55). -/
structure Report where
  src : Nat
  count : Nat
  first : Nat
deriving DecidableEq, Repr

/-- One snapshot bank (R301 to R307). -/
structure Bank where
  full : Bool
  content : Nat
  whileFull : Nat
  missed : Nat
deriving DecidableEq, Repr

def Bank.init : Bank := { full := false, content := 0, whileFull := 0, missed := 0 }

/-- A snapshot trigger that waits for its latch (R303, R304): kind 0 event, 1 dictionary, 2 SNAP_IN, 3 ledger; its source;
the cycle it was registered in; whether a latch was pending then (R305). -/
structure SnapTrigger where
  kind : Nat
  src : Nat
  cycle : Nat
  behind : Bool
deriving DecidableEq, Repr

/-- A pulse of a TRIG pin in output mode (R300): its pin, the instant in ps at which it goes active, the cycles that its run has
lasted, and whether the run goes on. -/
structure TrigPulse where
  pin : Nat
  start : Nat
  cycles : Nat
  running : Bool
deriving DecidableEq, Repr

/-- Events, trigger lines and the snapshot (chapter 11): occurrences not yet delivered; pending reports and the time each
source's last one was written; the lines pulsed in the present cycle, those that SIGNAL holds set by site, and those asserted
in the cycle before; the tile sources that pulse condition inputs in the present cycle and those that did in the cycle before;
the lines whose rising edge has been acted on in the present cycle; the lines and the broadcast strobe that the host has asked
for in the next cycle (R296); the CFEs woken in the present cycle;
the pulses at the TRIG outputs; the cycles in which SNAP_IN edges will be registered (R304); the fault latch; snapshot
triggers and banks. -/
structure EventState where
  raised : List Occurrence
  reports : List Report
  lastReport : List (Nat × Nat)
  linePulse : Nat
  lineSet : List (Nat × Nat)
  linePrev : Nat
  ciPulse : Nat
  ciPrev : Nat
  edged : Nat
  pulseNext : Nat
  strobeNext : Bool
  cfeWake : Nat
  trigIn : List (Nat × Nat × Nat)
  trigOut : List TrigPulse
  snapIn : List Nat
  faultLatch : Bool
  snap : List SnapTrigger
  banks : List (Nat × Bank)
deriving DecidableEq, Repr

def EventState.init : EventState :=
  { raised := [], reports := [], lastReport := [], linePulse := 0, lineSet := [], linePrev := 0, ciPulse := 0,
    ciPrev := 0, edged := 0, pulseNext := 0, strobeNext := false, cfeWake := 0, trigIn := [], trigOut := [], snapIn := [],
    faultLatch := false, snap := [], banks := [] }

/-- Blocks with staged fields (R59). -/
inductive Block where
  | site (s : Nat)
  | level (q : Nat)
  | timing (q : Nat)
  | dps (d : Nat)
  | gang (t : Nat)
  | acq (c : Nat)
  | memory
  | queue (q : Nat)
  | head (h : Nat)
  | frame (h : Nat)
  | thermal
deriving DecidableEq, Repr

/-- A load of a quad's 24 DACs (R70, R73, R365): its instant in ps, the codes of the set, where each output stood and where it comes
to rest, in nV. -/
structure DacLoad where
  ps : Nat
  codes : Nat
  start : List Int
  final : List Int
deriving DecidableEq, Repr

/-- The level outputs of a quad (R70 to R74): the loads since the bias was applied, newest first; the number of the last
strobe's cycle + 1, and the set that an LSET selected in it (R72). -/
structure Dac where
  loads : List DacLoad
  strobed : Nat
  lset : Option Nat
deriving DecidableEq, Repr

def Dac.init : Dac := { loads := [], strobed := 0, lset := none }

/-- What drives a pin (R63): nothing, with the termination by the termination mode, to VTT (DZ) or open whatever the mode
(R384); VIL; VIH; or a level between two transitions that the spec leaves open (R100). -/
inductive Drive where
  | off
  | vtt
  | isolated
  | low
  | high
  | unsure
deriving DecidableEq, Repr

/-- A change of what drives a pin, at an instant in quarter picoseconds at the package ball (R93, R94, R105, R106), and the instant
at which the driver launches it, earlier by the channel's drive deskew. -/
structure DriveEdge where
  at_ : Nat
  launch : Int
  drive : Drive
deriving DecidableEq, Repr

/-- A channel at its pin (R63, R93, R94, R127): the state of its last vector as the vector gives it, and with K as the kept
state; whether that vector drove; what drives the pin at the last settled instant, the edges still to come in order, and the
instant of the last value transition. -/
structure Pin where
  shown : Nat
  code : Nat
  drove : Bool
  drive : Drive
  edges : List DriveEdge
  lastMove : Nat
deriving DecidableEq, Repr

/-- DZ (R91): driver off, termination to VTT. -/
def Pin.init : Pin := { shown := 6, code := 6, drove := false, drive := .vtt, edges := [], lastMove := 0 }

/-- A window monitor (R87, R90, R227): its comparators, and a running self-check with its kind (1 SWAP, 2 TIE), ticks
taken, the answers of the last normal tick and whether every tick so far gave the required answer. -/
structure Monitor where
  low : Bool
  high : Bool
  check : Nat
  ticks : Nat
  normal : Bool × Bool
  good : Bool
deriving DecidableEq, Repr

def Monitor.init : Monitor :=
  { low := false, high := false, check := 0, ticks := 0, normal := (false, false), good := true }

/-- An input of a time measurement unit as latched at arm (R107, R113): source, threshold select, slope and trigger line. -/
structure TmuInput where
  source : Nat
  select : Nat
  slope : Nat
  line : Nat
deriving DecidableEq, Repr

def TmuInput.init : TmuInput := { source := 0, select := 0, slope := 0, line := 0 }

/-- A measurement whose conversion is in progress (R110, R117): its status, the start edge and the first and last counted edges
as (cycle, fine code), the edges counted, and whether two came faster than 3.0 GHz. -/
structure TmuDone where
  status : Nat
  start : Option (Nat × Nat)
  first : Option (Nat × Nat)
  last : Option (Nat × Nat)
  edges : Nat
  fast : Bool
deriving DecidableEq, Repr

/-- A time measurement unit (R107 to R117): the configuration as latched at arm; the measures of the batch that have not reached
their end and the index of the next result; the cycle from which it is ready for a start edge and whether it is; the start
edge as (cycle, fine code), its instant in half picoseconds, and the first and last counted edges, the edges counted, whether
two came faster than 3.0 GHz; the measurements that convert, in the order of their stop edges; the measure levels of the
channel's own comparators and whether they have been loaded; the batch count of a held arm; the stop edges as (cycle, fine code)
that have come in a cycle whose falling line edge may yet turn out to be the start edge (R107). -/
structure Tmu where
  mode : Nat
  startIn : TmuInput
  stopIn : TmuInput
  stopCount : Nat
  timeout : Nat
  gate : Nat
  level0 : Int
  level1 : Int
  loaded : Bool
  left : Nat
  seq : Nat
  ready : Nat
  isReady : Bool
  start : Option (Nat × Nat)
  startAt : Nat
  first : Option (Nat × Nat)
  last : Option (Nat × Nat)
  edges : Nat
  fast : Bool
  converting : List TmuDone
  heldCount : Nat
  early : List (Nat × Nat)
deriving DecidableEq, Repr

def Tmu.init : Tmu :=
  { mode := 0, startIn := TmuInput.init, stopIn := TmuInput.init, stopCount := 1, timeout := 0, gate := 0, level0 := 0,
    level1 := 0, loaded := false, left := 0, seq := 0, ready := 0, isReady := false, start := none, startAt := 0, first := none,
    last := none, edges := 0, fast := false, converting := [], heldCount := 0, early := [] }

/-- What the converters of a channel or a DPS have given since the last grid instant (R235): the voltage in µV and the current
code of the last valid sample, and whether a clamp was engaged (R239). -/
structure Converted where
  volt : Option Int
  cur : Option Int
  clamp : Bool
deriving DecidableEq, Repr

def Converted.init : Converted := { volt := none, cur := none, clamp := false }

/-- Channels and quads (chapters 03 and 04), and the quads whose level commit raises the strobe in the next cycle (R77). -/
structure PinState where
  strobes : List Nat
  dac : List (Nat × Dac)
  pin : List (Nat × Pin)
  chanMon : List (Nat × Monitor)
  ppmuSkip : List (Nat × Nat)
  conv : List (Nat × Converted)
  tmu : List (Nat × Tmu)
deriving DecidableEq, Repr

def PinState.init : PinState := { strobes := [], dac := [], pin := [], chanMon := [], ppmuSkip := [], conv := [], tmu := [] }

/-- A loop-stack entry (R128, R164, R165): iterations left, whether RES was set, whether its body has been captured for it,
whether its block T - 1 is still to be checked; the first block of the body and the exit block. -/
structure LoopEntry where
  left : Nat
  res : Bool
  owns : Bool
  check : Bool
  first : Nat
  exit : Nat
deriving DecidableEq, Repr

/-- A call-stack entry (R129, R164): the return block, the loop depth, whether RES was set, the target. -/
structure CallEntry where
  ret : Nat
  depth : Nat
  res : Bool
  target : Nat
deriving DecidableEq, Repr

/-- An armed event jump (R138): input, NEG, target, SPLICE mode. -/
structure Jump where
  input : Nat
  neg : Bool
  target : Nat
  splice : Bool
deriving DecidableEq, Repr

/-- A body in the capture area (R165): the blocks from `first` to before `last` whose stream data it holds, and whether the copy
has been made. -/
structure Capture where
  first : Nat
  last : Nat
  copied : Bool
deriving DecidableEq, Repr

/-- What a squash restores (R121): the issue-time state at a point of the pattern, and the next block of the stream order
there (R168, R173). -/
structure IssueSnap where
  loops : List LoopEntry
  calls : List CallEntry
  counters : Nat
  flags : Nat
  jump : Option Jump
  captures : List Capture
  order : Nat
deriving DecidableEq, Repr

def IssueSnap.init : IssueSnap :=
  { loops := [], calls := [], counters := 0, flags := 0, jump := none, captures := [], order := 0 }

/-- A commit-time effect that rides on a vector boundary (R121). `error`: halt reason, payload error cause, faulting quad (255
none). `captureMark` marks the boundary of a LOOP whose block T - 1 is still to be checked, with the issue-time state before it (R121,
R165), `jumpMark` that behind the jump point of a
SPLICE event jump whose target has been issued (R175). -/
inductive Effect where
  | tset (k : Nat)
  | lset (k : Nat)
  | signal (line op : Nat)
  | capt (a : Nat)
  | wait (input : Nat) (neg edge : Bool) (timeout flag : Nat)
  | halt (code : Nat)
  | error (reason cause quad : Nat)
  | stallMark
  | captureMark (snap : IssueSnap)
  | jumpMark
deriving DecidableEq, Repr

/-- The vectors of an issued block: `done` of `total` have committed; the jump-point interval; the body length of a MATCH
(0 for VEC and RPT); whether one vector is repeated; the state of a uniform RPT; whether the boundary before the first
vector is a stall-safe mark (R123); whether it was issued on the path that an unresolved SPLICE conditional predicts
(R170); vector `base + i` can commit from cycle `ready + i / 8` on (R146, R154), and those below `early` at once, from
the splice buffer (R173); whether it was issued while a WAIT-mode event jump was armed, up to a jump point at a time (R175);
the issue-time state the block was issued with (R121). -/
structure Play where
  blk : Nat
  total : Nat
  done : Nat
  interval : Nat
  iter : Nat
  rpt : Bool
  uniform : Option Nat
  mark : Bool
  spec : Bool
  ready : Nat
  base : Nat
  early : Nat
  wait : Bool
  snap : IssueSnap
deriving DecidableEq, Repr

/-- An entry of a site's run-ahead, in pin order: the vectors of a block, or an effect at a boundary, with the cycle from
which it can commit. -/
inductive Item where
  | vectors (p : Play)
  | effect (blk : Nat) (e : Effect) (spec : Bool) (ready : Nat)
deriving DecidableEq, Repr

/-- A decoded vector of one quad: four 3-bit states and the mask of its compares (R127, R161). -/
structure QVector where
  states : Nat
  mask : Nat
deriving DecidableEq, Repr

/-- A section in decode (R154, R162): its block and its vectors; where its streams begin in the quad's stream and how many bytes
they have, of which the fetch gives the vectors their share; whether all of it is at hand; the first vectors that the splice
buffer has given (R173). -/
structure Decoded where
  blk : Nat
  vecs : List QVector
  start : Nat
  len : Nat
  whole : Bool
  early : Nat
deriving DecidableEq, Repr

/-- A compare under way (R96, R105, R106): its channel and state, the strobe mode, the instants of its strobes in quarter
picoseconds, and the compare deskew by which the channel takes them later than at the ball. -/
structure Strobe where
  chan : Nat
  code : Nat
  mode : Nat
  first : Nat
  second : Nat
  deskew : Int
deriving DecidableEq, Repr

/-- A committed vector on its way to its result (R157): its number, commit cycle, result cycle, block, its compares, whether it
lies in a MATCH body and ends an iteration (R135), its fail window (R132), and whether the fail log was on as it committed
(R143). -/
structure Flight where
  number : Nat
  commit : Nat
  due : Nat
  blk : Nat
  strobes : List Strobe
  inMatch : Bool
  ends : Bool
  window : Nat
  log : Bool
deriving DecidableEq, Repr

/-- An unresolved conditional (R170 to R172): a BIF on FAIL or a MATCH. For a BIF: the predicted value, NEG, the target and
the fail window; for a MATCH: the most iterations, the body length, the iterations judged, the outcome flag and counter
(128 and up: not written). `upTo`: the vectors issued before it. -/
structure Conditional where
  isMatch : Bool
  splice : Bool
  predicted : Bool
  neg : Bool
  blk : Nat
  target : Nat
  iterations : Nat
  length : Nat
  judged : Nat
  failedIter : Bool
  flag : Nat
  counter : Nat
  window : Nat
  upTo : Nat
  owns : Bool
  snap : IssueSnap
deriving DecidableEq, Repr

/-- Why the pins play K (R156): a WAIT (its first cycle, and its operands), an unresolved conditional, or a stall with its
first cycle and cause. -/
inductive Hold where
  | none
  | wait (since input : Nat) (neg edge : Bool) (timeout flag : Nat)
  | result
  | stall (since cause : Nat)
deriving DecidableEq, Repr

/-- What a site's sequencer is doing. -/
inductive Phase where
  | off
  | preload
  | play
  | ending
deriving DecidableEq, Repr

/-- The sequencer of a site, kept at its lead quad (R16, R121, R147): the block count; the next block to issue, the next block
of the stream order (R168), the cycle from which the next block may issue (R146) and whether issue counts from there because
it began before the command that tells it (R175); stacks, the armed event jump, and a registered request with its cycle and
jump (R139); the run-ahead; results under way; the conditional; the hold; the cycle before which a shortage is a gap, and
whether the gap counts as conditional hold (R173, R180); the splice buffer's vectors left, with the stack depths and the
stream order at the conditional (R173); whether the next vector block takes over a stall-safe mark; the next vector boundary
and that of the pattern's first vector in ps (R101), and the ps of conditional hold not yet counted; vectors committed; the
commit cycle of the last vector if it was a jump point; the issue-time state at the last committed vector (R121); the fail
window at commit and at results, and whether it has a fail (R132); the cycle and the (quad, cause) pairs of a stall arm
(R176), stalls of the step; the cycle before which nothing commits after a stall (R177); the records of the fail log that wait
for earlier vectors' results, each with its vector number (R208); the bodies in the capture area, oldest first (R165); the
preload allowance in ns, whether preload is complete and whether the allowance has run out (R120); how the pattern ends. -/
structure Seq where
  phase : Phase
  blocks : Nat
  next : Nat
  streamNext : Nat
  issuing : Bool
  issueFree : Nat
  backdate : Bool
  loops : List LoopEntry
  calls : List CallEntry
  jump : Option Jump
  request : Option (Nat × Jump)
  items : List Item
  flights : List Flight
  cond : Option Conditional
  hold : Hold
  gapEnd : Nat
  gapCounts : Bool
  earlyLeft : Nat
  earlyLoops : Nat
  earlyCalls : Nat
  earlyNext : Nat
  nextMark : Bool
  boundaryPs : Nat
  startPs : Nat
  holdPs : Nat
  vectors : Nat
  lastJump : Option Nat
  lastSnap : IssueSnap
  window : Nat
  resultWindow : Nat
  windowFail : Bool
  logOn : Bool
  arm : Option (Nat × List (Nat × Nat))
  stalls : Nat
  resumeAt : Nat
  logWait : List (Nat × Nat)
  captures : List Capture
  allowance : Nat
  preloaded : Bool
  expired : Bool
  reason : Nat
  code : Nat
  haltPs : Nat
deriving DecidableEq, Repr

def Seq.init : Seq :=
  { phase := .off, blocks := 0, next := 0, streamNext := 0, issuing := false, issueFree := 0, backdate := false,
    loops := [], calls := [], jump := none, request := none, items := [], flights := [], cond := none, hold := .none,
    gapEnd := 0, gapCounts := false, earlyLeft := 0, earlyLoops := 0, earlyCalls := 0, earlyNext := 0, nextMark := false,
    boundaryPs := 0, startPs := 0, holdPs := 0, vectors := 0, lastJump := none, lastSnap := IssueSnap.init, window := 0,
    resultWindow := 0, windowFail := false, logOn := true, arm := none, stalls := 0, resumeAt := 0, logWait := [],
    captures := [],
    allowance := 0, preloaded := false, expired := false, reason := 0, code := 0, haltPs := 0 }

/-- A quad's stream (R118, R163, R167): what the descriptor's entry gives it; bytes of the resident image loaded; the stream
position of the first byte after the sections in decode and of the first not yet fetched; the reads that slots have issued and
that have not arrived, by position, and whether each took a real-time slot (R167, R252); whether the buffer has been filled once;
the poisoned 64-byte pieces; whether a redirect emptied the buffer since it was last filled (R179); whether a refill that has begun goes
on (R167); the 64-byte pieces as they were fetched, by stream position, the resident image's with them (R163); the sections in
decode. -/
structure Stream where
  base : Nat
  length : Nat
  table : Nat
  resOff : Nat
  resLen : Nat
  resGot : Nat
  pos : Nat
  fetched : Nat
  asked : List (Nat × Bool)
  filled : Bool
  poison : List Nat
  redirected : Bool
  refilling : Bool
  pieces : List (Nat × List Byte)
  decoded : List Decoded
deriving DecidableEq, Repr

def Stream.init : Stream :=
  { base := 0, length := 0, table := 0, resOff := 0, resLen := 0, resGot := 0, pos := 0, fetched := 0, asked := [], filled := false,
    poison := [], redirected := false, refilling := false, pieces := [], decoded := [] }

/-- Where a site's flow stands (R186). -/
inductive FlowPhase where
  | idle
  | boundary
  | admission
  | admitted
  | running
  | complete
  | credit
  | endCredit
deriving DecidableEq, Repr

/-- The flow of a site (R182 to R210): the phase; the record in hand by number and as its 32 bytes; begin and end time,
begin cycle and the site fail count at begin; the step sequence; admission retries and the cycle of the first request;
the result code; whether the flow runs from the abort record, whether an abort waits to act at the boundary (R187);
whether the fail limit was reached, the bin was set, the first fail was captured in this step; samples taken and their
reduction; the value of the record to be written and whether it is valid, and of the last PARAM-MEASURE; the code of the last
step that BRANCH 0x20 looks at; the code with which the flow ends; the fail log: records offered and dropped, the open
entry's records and the cycle of the last; the calibrations that a CALIBRATE-POINT step waits for, and whether one was
rejected; the table period in which it last asked for admission (R203). -/
structure Flow where
  phase : FlowPhase
  recNo : Nat
  record : Nat
  begin_ : Nat
  beginCycle : Nat
  end_ : Nat
  beginFails : Nat
  seq : Nat
  retries : Nat
  waitSince : Option Nat
  result : Nat
  abortFlow : Bool
  aborting : Bool
  limitHit : Bool
  binSet : Bool
  firstFail : Bool
  samples : Nat
  acc : Int
  value : Int
  valueOk : Bool
  lastValue : Int
  lastCode : Nat
  ending : Option Nat
  logOffered : Nat
  logDropped : Nat
  logEntry : List Nat
  logSince : Nat
  calTiles : Nat
  calRejected : Bool
  askedPeriod : Nat
deriving DecidableEq, Repr

def Flow.init : Flow :=
  { phase := .idle, recNo := 0, record := 0, begin_ := 0, beginCycle := 0, end_ := 0, beginFails := 0, seq := 0,
    retries := 0, waitSince := none, result := 0, abortFlow := false, aborting := false, limitHit := false,
    binSet := false, firstFail := false, samples := 0, acc := 0, value := 0, valueOk := false, lastValue := 0,
    lastCode := 0, ending := none, logOffered := 0, logDropped := 0, logEntry := [], logSince := 0, calTiles := 0,
    calRejected := false, askedPeriod := 0 }

/-- A SIGNAL on its way to the calibration plane (R142): the cycle it acts in, the site, the line and the operation. -/
structure Signal where
  due : Nat
  site : Nat
  line : Nat
  op : Nat
deriving DecidableEq, Repr

/-- Sequencers, streams and flows (chapters 05 to 07), with the host starts that wait for their ring time (R184), the sites
whose start waits for the CFE of their host tile (R373) and the signals on their way to the plane. -/
structure SiteState where
  seq : List (Nat × Seq)
  stream : List (Nat × Stream)
  flow : List (Nat × Flow)
  starts : List (Nat × Nat)
  woken : List Nat
  signals : List Signal
deriving DecidableEq, Repr

def SiteState.init : SiteState := { seq := [], stream := [], flow := [], starts := [], woken := [], signals := [] }

/-- A DPS channel behind its objects (R216 to R232). `ramp` is the present ramp point in microvolts; `inBand` counts
the valid samples in the settle band; `alarmed`: an alarm has been raised since the last update tick; `gridSum` is the charge
since the last grid instant of the cluster's acquisition (R235); `coefs` are the calibration coefficients in force (R365). -/
structure DpsChan where
  connected : Bool
  ramp : Int
  ramping : Bool
  clamped : Bool
  skip : Nat
  inBand : Nat
  disconnected : Bool
  clearAsked : Bool
  increments : Int
  gridSum : Int
  alarmed : Bool
  coefs : Option Coefs
deriving DecidableEq, Repr

def DpsChan.init : DpsChan :=
  { connected := false, ramp := 0, ramping := false, clamped := false, skip := 0, inBand := 0, disconnected := false,
    clearAsked := false, increments := 0, gridSum := 0, alarmed := false, coefs := none }

/-- The reduction of one input of a capture (R239, R240). -/
structure Reduction where
  count : Nat
  invalid : Nat
  min : Int
  max : Int
  sum : Int
  squares : Nat
  hist : List (Nat × Nat)
deriving DecidableEq, Repr

def Reduction.init : Reduction := { count := 0, invalid := 0, min := 0, max := 0, sum := 0, squares := 0, hist := [] }

/-- An acquisition unit (R234 to R245): the sample sets formed before a trigger, newest last, each as (input, record)
pairs; the index of the next set of the running capture; the reductions; the entries the capture has used; the last
valid sample of a LEVEL trigger's input; the cycle in which READY was entered, and whether the auto timeout forces a trigger at
the next set (R237); the capture's number, forced and disarm flags; the sample records of the entry not yet full; the TMU results
that wait to form sample sets. -/
structure Acq where
  pre : List (List (Nat × Sample))
  index : Nat
  red : List (Nat × Reduction)
  used : Nat
  previous : Option Int
  readySince : Nat
  forcing : Bool
  capture : Nat
  forced : Bool
  disarmed : Bool
  open_ : List Nat
  offers : List (Nat × Sample)
deriving DecidableEq, Repr

def Acq.init : Acq :=
  { pre := [], index := 0, red := [], used := 0, previous := none, readySince := 0, forcing := false, capture := 0, forced := false,
    disarmed := false, open_ := [], offers := [] }

/-- Device power and acquisition (chapter 08). -/
structure DpsState where
  chan : List (Nat × DpsChan)
  monV : List (Nat × Monitor)
  monI : List (Nat × Monitor)
  rank : Option (Nat × Nat)
  conv : List (Nat × Converted)
  acq : List (Nat × Acq)
deriving DecidableEq, Repr

def DpsState.init : DpsState := { chan := [], monV := [], monI := [], rank := none, conv := [], acq := [] }

/-- A slot grant (R253, R254): class 3 STREAM, 4 CAPTURE, 5 RASTER; owner site, acquisition unit (0x100 + c), or head
(0x200 + h); (subchannel, slots) pairs; in force; released at the next boundary. -/
structure Grant where
  cls : Nat
  owner : Nat
  slots : List (Nat × Nat)
  inForce : Bool
  released : Bool
deriving DecidableEq, Repr

/-- What a command on a subchannel is to a replay (R261): a write that has been issued, a read by whether its data has
arrived, a command/address command; of the skipped ones, an ACTIVATE with its requester and address, a queued write that has yet
to leave with its owner, a stream read with its quad and position and whether its slot was a real-time one, and a scrub read. -/
inductive CmdKind where
  | write
  | read (arrived : Bool)
  | command
  | activate (requester addr : Nat)
  | queued (rt : Bool) (owner : Nat)
  | stream (q pos : Nat) (rt : Bool)
  | scrub
deriving DecidableEq, Repr

/-- A command in a retry buffer or a replay, with the times it has been replayed, and whether it was skipped and is still to be
issued for the first time (R261). -/
structure Cmd where
  kind : CmdKind
  tries : Nat
  skipped : Bool
deriving DecidableEq, Repr

/-- Refresh management due on a bank, directed at a row where the device provides it (R263). -/
structure Rfm where
  bank : Nat
  row : Option Nat
deriving DecidableEq, Repr

/-- A write in a subchannel's write queue (R258): its burst, the burst's 64 bytes, none where a merge has kept what nothing has
written; whether it is a real-time write; the owner of its slots (R253), or its best-effort requester (R256); whether all of it
is new, no merge having been needed (R260); the number of the bulk write that it is a part of (0 for none). -/
structure QueuedWrite where
  burst : Nat
  data : List (Option Byte)
  rt : Bool
  owner : Nat
  whole : Bool
  bulk : Nat
deriving DecidableEq, Repr

/-- A subchannel behind its objects (R252, R256, R258 to R263, R268): the write queue oldest first; the retry buffer, the
commands that a replay has yet to issue, those skipped since ALERT_n, ALERT_n; the activations of each requester * 2^40 +
group and of each row in the window, the requesters that crossed in it, the banks that wait for refresh management and the
last one it was issued to; the best-effort requester served last and the slots left to each in its round; the devices that
reported hot; the slot, the used, idle and granted slots of the present and of the last completed period, and the scrub
interval that the scrub position belongs to. -/
structure SubState where
  writes : List QueuedWrite
  retry : List Cmd
  replay : List Cmd
  skipped : List Cmd
  alert : Bool
  acts : List (Nat × Nat)
  rows : List (Nat × Nat)
  crossed : Nat
  rfm : List Rfm
  managed : Option Rfm
  turn : Nat
  share : List (Nat × Nat)
  hot : Nat
  slotPos : Nat
  used : Nat
  idle : Nat
  granted : Nat
  lastUsed : Nat
  lastIdle : Nat
  lastGranted : Nat
  scrubRound : Nat
deriving DecidableEq, Repr

def SubState.init : SubState :=
  { writes := [], retry := [], replay := [], skipped := [], alert := false, acts := [], rows := [], crossed := 0,
    rfm := [], managed := none, turn := 7, share := [], hot := 0, slotPos := 0, used := 0, idle := 0, granted := 0,
    lastUsed := 0, lastIdle := 0, lastGranted := 0, scrubRound := 0 }

/-- A queue context beside its objects (R277, R282 to R287): the second copies of W and Rd, the last-EOP position in two
copies, the fixed flush point, a flush that waits for an EOP, whether 0x1701.23 asked for it, a disable that waits, the
reserved credits, whether the resident count has been below the level, and the entries whose producers wait for the memory, each
with its EOP flag and, for a real-time one, its owner (R278). -/
structure QueueState where
  w2 : Nat
  rd2 : Nat
  eop : Nat
  eop2 : Nat
  flushAt : Option Nat
  flushAsked : Bool
  flushHost : Bool
  disabling : Bool
  reserved : Nat
  below : Bool
  waiting : List (List Byte × Bool × Option Nat)
deriving DecidableEq, Repr

def QueueState.init : QueueState :=
  { w2 := 0, rd2 := 0, eop := 0, eop2 := 0, flushAt := none, flushAsked := false, flushHost := false, disabling := false,
    reserved := 0, below := true, waiting := [] }

/-- The memories (chapter 09): SDRAM bytes by global address, the parts of the address map (tile and address bit 7) whose channel
training has zero-filled, the bursts tagged poisoned and the bursts written whole (R260, R264); cluster SRAM bytes and the 32-bit words that fail parity (R286); grants,
the count of table periods, subchannels, the training step of each channel, the channels in a short retrain, the steps of the
training in progress and of each of its channels, whether the SDRAM has ever been READY, and whether an uncorrectable error
has been reported since the last clear (R290); the lease tokens issued and retired by tile; queue contexts and the poisoned
entries already delivered; the tiles in which grants have been released in this period, and by tile the period that began
after the last such release (R203). -/
structure MemState where
  sdram : List (Nat × Byte)
  zeroFilled : Nat
  sdramPoison : List Nat
  sdramWritten : List Nat
  sram : List (Nat × Byte)
  sramPoison : List Nat
  grants : List Grant
  period : Nat
  sub : List (Nat × SubState)
  trainStep : List (Nat × Nat)
  trainShort : Nat
  trainTotal : Nat
  trainLast : Nat
  everReady : Bool
  memError : Bool
  leaseIssued : List (Nat × Nat)
  leaseRetired : List (Nat × Nat)
  queue : List (Nat × QueueState)
  poisonSeen : List (Nat × Nat)
  freed : Nat
  freedPeriod : List (Nat × Nat)
deriving DecidableEq, Repr

def MemState.init : MemState :=
  { sdram := [], zeroFilled := 0, sdramPoison := [], sdramWritten := [], sram := [], sramPoison := [], grants := [],
    period := 0, sub := [], trainStep := [], trainShort := 0, trainTotal := 0, trainLast := 10,
    everReady := false, memError := false, leaseIssued := [], leaseRetired := [], queue := [],
    poisonSeen := [], freed := 0, freedPeriod := [] }

/-- A lease token (R324): the first byte and the number of bytes of its range, as a global SDRAM address; whether its
address is in force. -/
structure Lease where
  first : Nat
  len : Nat
  inForce : Bool
deriving DecidableEq, Repr

/-- A frame whose record is to be written (R327): its number, source CRC, whether it was aborted, its flags, the ring time of
its latch instant, the base address shown, and whether the head sent any word in it: none before its first latch. -/
structure Shown where
  number : Nat
  crc : Nat
  aborted : Bool
  flags : Nat
  time : Nat
  base : Nat
  sent : Bool
deriving DecidableEq, Repr

/-- A raster head (R308 to R329): its leases; the lines of the present frame fetched; the line buffer, the output words of the
last two lines; the running source CRC; whether the frame is aborted or showed poisoned data; whether the head has started
and not reached its first latch; the instants in ps of the last latch and of the next; whether the line match of the
present frame has come, and the cycle in which the line-match object was last written; the frame whose record is due. -/
structure HeadState where
  leases : List Lease
  fetched : Nat
  lines : List (Nat × List Nat)
  crc : Nat
  aborted : Bool
  poisoned : Bool
  starting : Bool
  lastLatch : Nat
  nextLatch : Nat
  matched : Bool
  matchFrom : Nat
  shown : Option Shown
deriving DecidableEq, Repr

def HeadState.init : HeadState :=
  { leases := [], fetched := 0, lines := [], crc := 0xFFFFFFFF, aborted := false, poisoned := false, starting := false,
    lastLatch := 0, nextLatch := 0, matched := false, matchFrom := 0, shown := none }

/-- A frame on the CSP (R345 to R350): the host's; a window read of `len` bytes; the write-enable, the program or the status frame
of a translated write; and at boot the read of the next `len` bytes of the slot, or the header's mode-switch frame `i` (R348). -/
inductive CspFrame where
  | host
  | windowRead (k off len : Nat)
  | writeEnable (k : Nat)
  | program (k : Nat)
  | statusPoll (k : Nat)
  | bootRead (len : Nat)
  | bootSwitch (i : Nat)
deriving DecidableEq, Repr

/-- How far the piece of a translated write in hand has come (R350). -/
inductive WriteStage where
  | enable
  | program
  | poll (since next : Nat)
deriving DecidableEq, Repr

/-- A translated write (R350): its select, the window offset of its next piece, the bytes still to be programmed, its stage, and
whether it runs or only waits for the port. -/
structure WindowWrite where
  k : Nat
  off : Nat
  data : List Byte
  stage : WriteStage
  runs : Bool
deriving DecidableEq, Repr

/-- A section entry of the boot image (R337): type, offset, length and CRC-32. -/
structure Section where
  typ : Nat
  off : Nat
  len : Nat
  crc : Nat
deriving DecidableEq, Repr

/-- One record of the DEFAULTS section (R337). -/
structure DefaultRec where
  ix : Nat
  sub : Nat
  value : List Byte
deriving DecidableEq, Repr

/-- The image booted, as on-chip staging holds it (R337 to R339): the header's fields that take effect, where the slot and its
FIRMWARE section lie, the image digest, and sections 2 to 6. -/
structure Image where
  length : Nat
  security : Nat
  primacy : Nat
  training : Nat
  fastRead : Nat
  slot : Nat
  firmware : Section
  digest : List Byte
  pageDigests : List (List Byte)
  major : Nat
  minor : Nat
  build : Nat
  isa : Nat
  storeCrc : Nat
  microcode : List (BitVec 96)
  cfeCode : List Byte
  dictionary : List Byte
  defaults : List DefaultRec
deriving DecidableEq, Repr

/-- Boot, cores and serial ports (chapter 13): whether PORST_N is held low; whether the part has been released to READY, and
whether a withheld release waits; the slot that stage 3 reads, the bytes read before it, its bytes read so far and the mode-switch
frames passed (R333, R348); the fuse fields that no object shows, with trims and repair as they take effect, and the ROLLBACK bits
burned since the map was read (R334 to R336); the control stores by quad and the flow-interpreter code by CFE (R149, R330); the
image booted; the frame on the CSP, its descriptor, the cycle it began in; the descriptor of the host frame that waits or runs; the
data bytes that it sends (R349, R350); waiting window reads and translated writes; the data of the last window read; the bytes the
SSP drives; the quads reloaded once (R150); the pages in the execution cache of each half, and the consecutive mismatches on one
page by half, as (page, count) (R339); an accepted change of primacy that waits (R344); the bits of the Primrose copies that the read
path of half W and of half E turns over (R342); SAFE-HOLD (R342). -/
structure BootState where
  held : Bool
  released : Nat
  slot : Nat
  slotBytes : Nat
  slotData : List Byte
  switched : Nat
  devkey : BitVec 256
  pkhash : BitVec 384
  mapver : BitVec 16
  rcTrim : BitVec 32
  locks : BitVec 64
  trims : BitVec 14400
  check : BitVec 1024
  burned : Nat
  stores : List (Nat × List (BitVec 96))
  cfeCode : List (Nat × List Byte)
  image : Option Image
  csp : Option CspFrame
  cspDesc : Nat
  cspSince : Nat
  cspOut : List Byte
  hostDesc : Nat
  reads : List (Nat × Nat × Nat)
  writes : List WindowWrite
  windowData : List Byte
  sspOut : List Byte
  reloaded : Nat
  cache : List (Nat × List (Nat × List Byte))
  pageMiss : List (Nat × (Nat × Nat))
  pendingPrimacy : Option Nat
  pathW : Copies
  pathE : Copies
  safeHold : Bool
deriving DecidableEq, Repr

def BootState.init : BootState :=
  { held := false, released := 0, slot := 0, slotBytes := 0, slotData := [], switched := 0, devkey := 0, pkhash := 0, mapver := 0,
    rcTrim := 0, locks := 0, trims := 0, check := 0, burned := 0, stores := [], cfeCode := [], image := none,
    csp := none, cspDesc := 0, cspSince := 0, cspOut := [], hostDesc := 0, reads := [], writes := [], windowData := [], sspOut := [],
    reloaded := 0, cache := [], pageMiss := [],
    pendingPrimacy := none, pathW := ⟨0, 0, 0⟩, pathE := ⟨0, 0, 0⟩, safeHold := false }

/-- Calibration of a tile (R359 to R366): kinds and causes of the running one, the cycle it began in and the hottest reading
there; whether a LEVEL run found its references outside their limits, and what the present run's check found (R358); when a retry
is due and of what kinds; whether the rejection limit has stopped its automatic causes (R366); whether CAL-NEEDED has been raised
since the last reference temperature, and whether the last reading was more than the temperature step away from it (R359, R360);
the internal-mode mask as read at the last start of a run (R357); what the two runs found (R364); the DPS channels whose
measurement path is switched, with the cycle it was switched in, and the ns for which each has been switched in this run (R362). -/
structure Cal where
  kinds : Nat
  causes : Nat
  began : Nat
  temperature : Int
  refBad : Bool
  retryAt : Option Nat
  retryKinds : Nat
  suspended : Bool
  needRaised : Bool
  apart : Bool
  checked : Option Bool
  internal : Nat
  run1 : List CalUnit
  run2 : List CalUnit
  path : List (Nat × Nat)
  pathUsed : List (Nat × Nat)
deriving DecidableEq, Repr

def Cal.init : Cal :=
  { kinds := 0, causes := 0, began := 0, temperature := 0, refBad := false, retryAt := none, retryKinds := 0,
    suspended := false, needRaised := false, apart := false, checked := none, internal := 0, run1 := [], run2 := [], path := [],
    pathUsed := [] }

/-- Calibration, power and heat (chapters 14 to 16): for each tile the move in progress (0 none, else 1 + the state it goes
to) and the cycle it began in (R371), the cycle + 1 of the last best-effort access since the tile was woken from DORMANT
(R372), and the cycle in which its throttle level asserted (R381); the accepted coefficients of each calibration unit, by
137 * tile + unit, with none while its fuse trims stand (R356, R364, R367); the conversions in a row whose phases were
identical, by 8 * tile + sensor (R375); the chip's hottest valid reading at the predictions of
the last 1 ms, newest first, with their cycles (R382); THERMTRIP_N (R384); the cycle of the last conversion, and since
PORST_N the reading summed over time and the ns in the bands of R399. -/
structure PowerState where
  cal : List (Nat × Cal)
  coefs : List (Nat × Option Coefs)
  same : List (Nat × Nat)
  moving : List (Nat × Nat)
  moveSince : List (Nat × Nat)
  lastAccess : List (Nat × Nat)
  throttleSince : List (Nat × Nat)
  history : List (Nat × Int)
  thermtrip : Bool
  converted : Nat
  tempSum : Int
  warmNs : Nat
  hotNs : Nat
deriving DecidableEq, Repr

def PowerState.init : PowerState :=
  { cal := [], coefs := [], same := [], moving := [], moveSince := [], lastAccess := [], throttleSince := [], history := [], thermtrip := false,
    converted := 0, tempSum := 0, warmNs := 0, hotNs := 0 }

/-- The Marigold ledger beside its objects (R289 to R292): for each invariant * 1024 + scope, the baseline and whether
it is suspended; the scans that locate a queue, by tile: bit 0 for invariant 1, bit 1 for invariant 2. -/
structure LedgerState where
  base : List (Nat × Int)
  suspended : List Nat
  locate : List (Nat × Nat)
deriving DecidableEq, Repr

def LedgerState.init : LedgerState := { base := [], suspended := [], locate := [] }

/-- The block itself: all that the spec gives it but the queue of waiting commands. `objs` is the register file of
the dictionary: an unlisted key reads as `resetValue`. `freeCtr` is the model's own: it counts the free values handed
out (log entry 2). `relock` marks the tiles whose PLLs have not relocked since REFCLK was lost (R26). -/
structure Device where
  objs : List (Nat × Nat)
  cycle : Nat
  ringNs : Nat
  ringFrac : Nat
  steer : Int
  steerRem : Int
  refclk : RefClk
  relock : Nat
  freeCtr : Nat
  pend : List Block
  ring : RingState
  event : EventState
  pins : PinState
  sites : SiteState
  dps : DpsState
  mem : MemState
  heads : List (Nat × HeadState)
  boot : BootState
  power : PowerState
  ledger : LedgerState
deriving DecidableEq, Repr

/-- The block right after reset (R91, R230, R301, R330): every object at its default, boot in stage 1. -/
def Device.reset : Device :=
  { objs := [], cycle := 0, ringNs := 0, ringFrac := 0, steer := 0, steerRem := 0, refclk := .absent,
    relock := 0, freeCtr := 0, pend := [], ring := RingState.init, event := EventState.init, pins := PinState.init,
    sites := SiteState.init, dps := DpsState.init, mem := MemState.init, heads := [], boot := BootState.init,
    power := PowerState.init, ledger := LedgerState.init }

/-- The machine: the block and the commands waiting for it, first in, first out. -/
structure State where
  pending : List Instr
  dev : Device
deriving DecidableEq, Repr

/-- The machine right after reset: no command waits. -/
def State.reset : State := { pending := [], dev := Device.reset }

/-- Why the machine could stop with a fault. No meaning of the present model raises one: the part counts an access it
forbids and goes on (R61). Kept for the host's interface; safe. -/
inductive Fault where
  /-- Raised by nothing: an access outside every address space of the part. Safe. -/
  | outsideAddressSpace
deriving DecidableEq, Repr

/-- Why a command could be refused. -/
inductive Refusal where
  /-- Raised by an arm of `exec` that has no meaning yet. Safe. -/
  | notModelled (mnemonic : String)
deriving DecidableEq, Repr

end Sys2Proof.Machine
end

