-- ==== Sys2Proof/Machine/Flags.lean ====
section
/-!
DEFINITION. Reason codes of a commit and their ranks (R59, R401), and the numbers the status objects use.
-/
namespace Sys2Proof.Machine

/-! ## Reason codes (R59) -/

def codeAccepted : Nat := 0x0000
def codePending : Nat := 0x0001
def codeInconsistent : Nat := 0x0010
def codeOutOfRange : Nat := 0x0011
def codeZeroRefused : Nat := 0x0012
def codeGradeLimit : Nat := 0x0013
def codeBusy : Nat := 0x0014
def codeConflict : Nat := 0x0015
def codeOverLimit : Nat := 0x0016
def codeUnavailable : Nat := 0x0017

/-- The rank of a refusal code (R401). -/
def codeRank (c : Nat) : Nat :=
  if c = 0x0017 then 1
  else if c = 0x0014 ∨ c = 0x0114 ∨ c = 0x0132 ∨ c = 0x0151 then 2
  else if c = 0x0015 then 3
  else if c = 0x0012 then 4
  else if c = 0x0011 then 5
  else if c = 0x0013 then 6
  else if c = 0x0016 then 8
  else 7

/-- Of two refusal codes the one that the status shows: the lower rank, within a rank the lower number (R401). -/
def codeFirst (a b : Nat) : Nat :=
  if codeRank a < codeRank b then a
  else if codeRank b < codeRank a then b
  else min a b

/-- The code that the status shows, where each pair is a code and whether its check fails; 0 when none fails. -/
def verdict : List (Nat × Bool) → Nat
  | [] => 0
  | (c, bad) :: l =>
    let r := verdict l
    if bad then (if r = 0 then c else codeFirst c r) else r

/-! ## Violation kinds (R61) -/

def kindUndefined : Nat := 0
def kindAccess : Nat := 1
def kindRole : Nat := 2
def kindValue : Nat := 3
def kindState : Nat := 4

/-- The last-violation record (0x4000.02). -/
def violationWord (port ix sub kind : Nat) : Nat :=
  ix % 65536 + (sub % 256) * 2 ^ 16 + (port % 2) * 2 ^ 24 + (kind % 8) * 2 ^ 25

end Sys2Proof.Machine
end

