-- ==== Sys2Proof/Machine/Operands.lean ====
section
/-!
DEFINITION. The fields of the records that commands work on: level sets (R69), timing sets (R92), fixture delays
(R106), flow records (R189), descriptors (R118), gang maps (R223), and the pure rules over them (drive rates R66, R67,
edge checks R95 to R98).
-/
namespace Sys2Proof.Machine

/-! ## Level sets (R69) -/

/-- Field `i` (0 VIH, 1 VIL, 2 VTT, 3 VOH, 4 VOL, 5 VPM) of channel position `c` of a level set. -/
def levelCode (set c i : Nat) : Int := sx 32 (fld set (24 * c + 4 * i) 4)

def levelLow (i : Nat) : Int := if i < 3 then -50000 else -150000
def levelHigh (i : Nat) : Int := if i < 3 then 300000 else 600000

/-- Every code of the set lies in its field's range (R62, R69). -/
def levelInRange (set : Nat) : Bool :=
  (List.range 4).all fun c => (List.range 6).all fun i =>
    decide (levelLow i ≤ levelCode set c i) && decide (levelCode set c i ≤ levelHigh i)

/-- VIL is not above VIH and VOL not above VOH on any channel (R69). -/
def levelOrdered (set : Nat) : Bool :=
  (List.range 4).all fun c =>
    decide (levelCode set c 1 ≤ levelCode set c 0) && decide (levelCode set c 4 ≤ levelCode set c 3)

/-- The largest VIH - VIL of the set's channels, as a code. -/
def levelSwing (set : Nat) : Int :=
  (List.range 4).foldl (fun m c => max m (levelCode set c 0 - levelCode set c 1)) 0

/-- Linear interpolation between (x0, y0) and (x1, y1) with falling y, rounded down to a whole code (R67). -/
def interpDown (x0 y0 x1 y1 x : Nat) : Nat := (y0 * (x1 - x0) - (y0 - y1) * (x - x0)) / (x1 - x0)

/-- The largest permitted swing at a drive-rate ceiling in Mbit/s, as a code (R67). -/
def largestSwing (ceiling : Nat) : Nat :=
  if ceiling ≤ 1600 then 350000
  else if ceiling ≤ 3200 then interpDown 1600 350000 3200 240000 ceiling
  else if ceiling ≤ 4800 then interpDown 3200 240000 4800 180000 ceiling
  else if ceiling ≤ 6400 then interpDown 4800 180000 6400 145000 ceiling
  else if ceiling ≤ 8000 then interpDown 6400 145000 8000 120000 ceiling
  else 120000

/-! ## Timing sets (R92) -/

def timePeriod (set : Nat) : Nat := fld set 0 4
def timeFormat (set c : Nat) : Nat := fld set (4 + 28 * c) 1
def timeStrobeMode (set c : Nat) : Nat := fld set (5 + 28 * c) 1
def timeReserved (set c : Nat) : Nat := fld set (6 + 28 * c) 2
/-- Edge `i` of channel position `c`: 0 on, 1 data, 2 return, 3 off, 4 strobe 1, 5 strobe 2, in 0.25 ps. -/
def timeEdge (set c i : Nat) : Nat := fld set (8 + 28 * c + 4 * i) 4

/-- The multiplier of a drive format (R66). -/
def formatMultiplier (f : Nat) : Nat := if f = 0 then 0 else if f = 1 then 1 else if f = 4 then 3 else 2

/-- The largest multiplier among the set's four channels (R66). -/
def timeMultiplier (set : Nat) : Nat := (List.range 4).foldl (fun m c => max m (formatMultiplier (timeFormat set c))) 0

/-- The drive rate of the set exceeds the ceiling, compared exactly (R66). -/
def aboveCeiling (set ceiling : Nat) : Bool := decide (ceiling * timePeriod set < timeMultiplier set * 1000000)

/-- The shortest vector period of a speed grade, in ps (R3): 157 for grade 6, else 125. -/
def shortestPeriod (grade : Nat) : Nat := if grade = 6 then 157 else 125

/-- Fields inside their ranges, the period apart (R92). An edge that the format or a period below 500 ps does not use is held to its
range too (DESIGN CHOICE, log entry 106). -/
def timeInRange (set : Nat) : Bool :=
  (List.range 4).all fun c =>
    decide (timeFormat set c ≤ 4) && decide (timeStrobeMode set c ≤ 2) && decide (timeReserved set c = 0) &&
    (List.range 6).all fun i => decide (timeEdge set c i < 4 * timePeriod set)

/-- Below 500 ps every format is OFF or NRZ and every strobe mode POINT (R98). -/
def timeFormatPeriod (set : Nat) : Bool :=
  decide (500 ≤ timePeriod set) ||
  (List.range 4).all fun c => decide (timeFormat set c ≤ 1) && decide (timeStrobeMode set c = 0)

/-- The value transitions of a channel's format, in order (R95). -/
def transitions (set c : Nat) : List Nat :=
  match timeFormat set c with
  | 1 => [timeEdge set c 1]
  | 2 => [timeEdge set c 1, timeEdge set c 2]
  | 3 => [timeEdge set c 1, timeEdge set c 2]
  | 4 => [timeEdge set c 0, timeEdge set c 1, timeEdge set c 2]
  | _ => []

/-- Neighbouring transitions strictly rising and at least 125 ps (500 quarter picoseconds) apart (R95). -/
def spaced : List Nat → Bool
  | [] => true
  | [_] => true
  | a :: b :: r => decide (a + 500 ≤ b) && spaced (b :: r)

/-- R95 and R96 for one channel of a set: 0x0112 EDGE-ORDER otherwise. -/
def edgesOrdered (set c : Nat) : Bool :=
  let p := timePeriod set
  let ts := transitions set c
  spaced ts &&
  (match ts with
   | [] => true
   | a :: _ => decide (ts.getLastD a + 500 ≤ a + 4 * p)) &&
  (!(decide (timeFormat set c = 1) && decide (500 ≤ p)) || decide (timeEdge set c 0 ≤ timeEdge set c 1)) &&
  (match timeStrobeMode set c with
   | 1 => decide (timeEdge set c 4 + 500 ≤ timeEdge set c 5)
   | 2 => decide (timeEdge set c 4 + 400 ≤ timeEdge set c 5)
   | _ => true)

/-- The last strobe of a channel in a set, in 0.25 ps (R96, R157). -/
def lastStrobe (set c : Nat) : Nat :=
  if timeStrobeMode set c = 0 then timeEdge set c 4 else max (timeEdge set c 4) (timeEdge set c 5)

/-! ## Fixture delays (R106) -/

def driveDelay (rec c : Nat) : Nat := fld rec (8 * c) 4
def compareDelay (rec c : Nat) : Nat := fld rec (8 * c + 4) 4
def delaysInRange (rec : Nat) : Bool :=
  (List.range 4).all fun c => decide (driveDelay rec c ≤ 40000) && decide (compareDelay rec c ≤ 40000)

/-! ## Flow records (R189, R191) -/

def recOpcode (r : Nat) : Nat := fld r 0 1
def recFlags (r : Nat) : Nat := fld r 1 1
def recPass (r : Nat) : Nat := fld r 2 2
def recFail (r : Nat) : Nat := fld r 4 2
def recNotAdmitted (r : Nat) : Nat := fld r 6 2
def recBin (r : Nat) : Nat := fld r 8 2
def recLow (r : Nat) : Int := sx 32 (fld r 20 4)
def recHigh (r : Nat) : Int := sx 32 (fld r 24 4)
def recTest (r : Nat) : Nat := fld r 28 4
def binValid (b : Nat) : Bool := bit b 15
def binSoft (b : Nat) : Nat := bitf b 0 10
def binHard (b : Nat) : Nat := bitf b 10 5

/-- Which bits of the flags byte an opcode defines (R192, R195). -/
def flagBits (op : Nat) : Nat := if op = 1 then 1 else if op = 2 then 3 else 0

/-- The opcodes of R191. -/
def flowOpcode (op : Nat) : Bool := (1 ≤ op && op ≤ 8) || op == 15

/-- (pass, fail, not-admitted) successors used by an opcode (R191). -/
def usesSuccessors (op : Nat) : Bool × Bool × Bool :=
  if op = 1 then (true, true, true)
  else if op = 6 ∨ op = 7 then (true, false, false)
  else if op = 15 then (false, false, false)
  else (true, true, false)

/-- Whether the bin field may be valid (fail bin), must be, or must not be: 0, 1, 2 (R191). -/
def binRule (op : Nat) : Nat := if op = 6 then 1 else if op = 5 ∨ op = 7 ∨ op = 15 then 2 else 0

/-- The bad field with the lowest offset, if any: `(offset, bad)` pairs in rising order. -/
def firstBad (l : List (Nat × Bool)) : Option Nat := (l.find? fun p => p.2).map Prod.fst

/-- Arguments and limits of a record against R191, as the first bad byte offset. `chans` is the number of the site's
channels, `dpsOk` whether a DPS number lies in a tile the site spans (R195). -/
def recArgsBad (r chans : Nat) (dpsOk : Nat → Bool) : List (Nat × Bool) :=
  let z (o n : Nat) : Nat × Bool := (o, fld r o n != 0)
  let zeros (o n : Nat) : List (Nat × Bool) := (List.range n).map fun i => (o + i, fld r (o + i) 1 != 0)
  let wide (o : Nat) : Nat × Bool := (o, decide (sx 32 (fld r o 4) < -8388608) || decide (8388607 < sx 32 (fld r o 4)))
  match recOpcode r with
  | 1 => [(16, fld r 16 4 % 16 != 0)]
  | 2 => [(12, decide (5 < fld r 12 1)), (13, decide (2 < fld r 13 1)),
          (14, if fld r 12 1 = 2 ∨ fld r 12 1 = 3 then !(decide (fld r 14 2 < 64) && dpsOk (fld r 14 2))
               else decide (chans ≤ fld r 14 2)),
          (16, fld r 16 4 == 0 || decide (1000000 < fld r 16 4))]
  | 3 => [(12, decide (63 < fld r 12 1)), (13, decide (5 < fld r 13 1)), z 14 2,
          wide 16, wide 20, wide 24]
  | 4 => [(12, decide (63 < fld r 12 1) && fld r 12 1 != 255)] ++ zeros 13 3 ++ [z 20 4, z 24 4]
  | 5 => [(12, !(decide (fld r 12 1 ≤ 7) || (decide (16 ≤ fld r 12 1) && decide (fld r 12 1 ≤ 0x23)))),
          (13, decide (3 < fld r 13 1) ||
               (bit (fld r 13 1) 1 && !(decide (16 ≤ fld r 12 1) && decide (fld r 12 1 ≤ 31)))),
          (14, if fld r 12 1 = 0x23 then decide (15 < fld r 14 1) else fld r 14 1 != 0)] ++ zeros 15 5 ++
         [(20, fld r 12 1 != 0x23 && fld r 20 4 != 0), (24, fld r 12 1 != 0x23 && fld r 24 4 != 0)]
  | 6 => zeros 12 8 ++ [z 20 4, z 24 4]
  | 7 => [(12, decide (5 < fld r 12 1)), z 13 1,
          (14, if fld r 12 1 = 0 then decide (15 < fld r 14 2)
               else if fld r 12 1 = 2 then decide (chans ≤ fld r 14 2) else fld r 14 2 != 0),
          z 16 4, z 20 4, z 24 4]
  | 8 => [(12, decide (1 < fld r 12 1))] ++ zeros 13 7 ++ [z 20 4, z 24 4]
  | 15 => zeros 12 8 ++ [z 20 4, z 24 4]
  | _ => []

/-- The first failing byte offset of a record under R190, or none. -/
def recordError (r count chans : Nat) (dpsOk : Nat → Bool) : Option Nat :=
  let op := recOpcode r
  let u := usesSuccessors op
  let succBad (used : Bool) (v : Nat) : Bool := if used then decide (count ≤ v) else v != 0xFFFF
  if !(flowOpcode op) then some 0 else
  firstBad ([(1, decide (recFlags r ≠ recFlags r % (flagBits op + 1))), (2, succBad u.1 (recPass r)),
    (4, succBad u.2.1 (recFail r)),
    (6, if u.2.2 then decide (count ≤ recNotAdmitted r) && recNotAdmitted r != 0xFFFF else recNotAdmitted r != 0xFFFF),
    (8, (binRule op == 1 && !(binValid (recBin r))) || (binRule op == 2 && binValid (recBin r))),
    (10, fld r 10 2 != 0)] ++ recArgsBad r chans dpsOk)

end Sys2Proof.Machine
end

