-- ==== Sys2Proof/Machine/Ops.lean ====
section
/-!
DEFINITION. The operations that every meaning is made of: the register file and its copies (R59), counters, events
(R293), access checks and violations (R61), staged settings and commits (R59), the memories, the containment of units
(R11), sites (R13), and the per-unit records.
-/
namespace Sys2Proof.Machine

/-! ## Indices of units (00, index map; R11) -/

def chanIx (n : Nat) : Nat := 0x2000 + n
def quadIx (q : Nat) : Nat := 0x2200 + q
def clusterIx (c : Nat) : Nat := 0x2280 + c
def tileIx (t : Nat) : Nat := 0x22A0 + t
def dpsIx (d : Nat) : Nat := 0x2300 + d
def siteIx (s : Nat) : Nat := 0x2400 + s

/-- The port's number in the dictionary (R58, R61). -/
def portNo : Port → Nat
  | .ring => 0
  | .ssp => 1

/-- The key of a per-port object as port `p` sees it (02, Roles). -/
def portKey (p : Port) (ix sub : Nat) : Nat := okey ix sub + portNo p * sspBase

namespace Device

/-! ## The register file -/

/-- What the register file holds at a key. -/
def get (d : Device) (k : Nat) : Nat := Cells.read (resetValue k) k d.objs

/-- `v` put at a key. -/
def put (d : Device) (k v : Nat) : Device := { d with objs := Cells.write (resetValue k) k v d.objs }

/-- The object `ix.sub`: for a staged object its staging copy (R59). -/
def o (d : Device) (ix sub : Nat) : Nat := d.get (okey ix sub)

/-- The active copy of a staged object (R59). -/
def act (d : Device) (ix sub : Nat) : Nat := d.get (akey (okey ix sub))

/-- The pending copy of a staged object (R59). -/
def pnd (d : Device) (ix sub : Nat) : Nat := d.get (pkey (okey ix sub))

def w (d : Device) (ix sub v : Nat) : Device := d.put (okey ix sub) v
def wact (d : Device) (ix sub v : Nat) : Device := d.put (akey (okey ix sub)) v

/-- A counter that stops at the largest value of its width in bytes. -/
def addSat (d : Device) (ix sub bytes n : Nat) : Device := d.w ix sub (satAdd (8 * bytes) (d.o ix sub) n)

/-- A counter with no stated saturation wraps (log entry 4). -/
def addWrap (d : Device) (ix sub bytes n : Nat) : Device := d.w ix sub (wrapAdd (8 * bytes) (d.o ix sub) n)

/-- One bit of an object. -/
def wbit (d : Device) (ix sub b : Nat) (v : Bool) : Device := d.w ix sub (setBit (d.o ix sub) b v)

/-- A signed object value of 32 bits. -/
def oi (d : Device) (ix sub : Nat) : Int := sx 32 (d.o ix sub)
def acti (d : Device) (ix sub : Nat) : Int := sx 32 (d.act ix sub)
def pndi (d : Device) (ix sub : Nat) : Int := sx 32 (d.pnd ix sub)

/-! ## Free values and events -/

/-- The next free value's number (log entry 2). -/
def fresh (d : Device) : Device := { d with freeCtr := d.freeCtr + 1 }

/-- The route record of a source (R294). -/
def route (d : Device) (src : Nat) : Nat := d.o (0x1540 + src / 16) (1 + src % 16)

/-- The place of a trigger kind in the order of R303: ledger, SNAP_IN, event, dictionary write. -/
def snapRank (kind : Nat) : Nat := if kind = 3 then 0 else if kind = 2 then 1 else if kind = 0 then 2 else 3

/-- Of two triggers of one cycle the one that names the picture (R303). -/
def snapFirst (a b : SnapTrigger) : SnapTrigger :=
  if snapRank b.kind < snapRank a.kind then { b with behind := a.behind }
  else if snapRank a.kind < snapRank b.kind then a
  else if b.src < a.src then { b with behind := a.behind } else a

/-- A trigger joins the waiting ones: those of one cycle form one trigger (R303). -/
def addSnap (x : SnapTrigger) : List SnapTrigger → List SnapTrigger
  | [] => [x]
  | y :: l => if y.cycle = x.cycle then snapFirst y x :: l else y :: addSnap x l

/-- A snapshot trigger is registered in cycle `c` (R302 to R305). -/
def registerSnap (kind src c : Nat) (d : Device) : Device :=
  { d with event := { d.event with snap := addSnap ⟨kind, src, c, !d.event.snap.isEmpty⟩ d.event.snap } }

/-- An occurrence of source `src` is raised now (R293); EVENT_DELIVERY routes it by the record in force now. One that the record
sends to the snapshot registers its trigger in this cycle (R295, R302, R304). -/
def raise (d : Device) (src : Nat) : Device :=
  let d1 := { d with event := { d.event with raised := d.event.raised ++ [⟨src, d.cycle, d.ringNs, d.route src⟩] } }
  if bit (fld (d.route src) 12 1) 2 then registerSnap 0 src d.cycle d1 else d1

/-- The cluster source `j` (0 to 3) of cluster `c`, the tile source `j` (0 to 7) of tile `t` (R293, R11). -/
def clusterSource (c j : Nat) : Nat := 64 + 24 * (c / 4) + 4 * (c % 4) + j
def tileSource (t j : Nat) : Nat := 64 + 24 * t + 16 + j

/-! ## Access (R10, R57, R61) -/

/-- The role that a port holds. -/
def role (d : Device) (p : Port) : Nat := d.get (portKey p 0x1000 0x10)
def setRole (d : Device) (p : Port) (r : Nat) : Device := d.put (portKey p 0x1000 0x10) r

/-- Ring join has taken place (R400: DOWN until ring join). -/
def joined (d : Device) : Bool := d.o 0x1100 0x05 != 0

/-- Boot has released the part to READY (R330). -/
def ready (d : Device) : Bool := d.boot.released == 1

/-- Boot stands in FAILED (R333): nothing drives. -/
def failed (d : Device) : Bool := d.o 0x1200 0x01 == 8

/-- One violation of port `p`, counted and recorded (R61). -/
def violate (d : Device) (p : Port) (ix sub kind : Nat) : Device :=
  (d.addSat 0x4000 0x01 4 1).w 0x4000 0x02 (violationWord (portNo p) ix sub kind)

/-- The role that a write needs: that of the object's row; the primacy assignment needs SERVICE outside SAFE-HOLD (R344). -/
def writeRoleOf (d : Device) (ix sub : Nat) (r : ObjRow) : Nat :=
  if ix = 0x1220 ∧ sub = 0x07 ∧ d.boot.safeHold = false then 3 else r.writeRole

/-- Kinds 0 to 2 of R61 for an access, if one applies: undefined, access kind, role. -/
def accessKind (d : Device) (p : Port) (write : Bool) (ix sub : Nat) : Option Nat :=
  match objKind ix sub with
  | .undefined => some kindUndefined
  | .highest => if write then some kindAccess else none
  | .active r => if write then some kindAccess else if d.role p < r.readRole then some kindRole else none
  | .row r =>
    if (write && r.access == .ro) || (!write && r.access == .wo) then some kindAccess
    else if d.role p < (if write then d.writeRoleOf ix sub r else r.readRole) then some kindRole
    else none

/-- What the SSP serves before READY and in FAILED (R355). -/
def sspServes (write : Bool) (ix sub : Nat) : Bool :=
  (!write && (ix == 0x1000 || ix == 0x1200)) || (ix == 0x1000 && decide (0x10 ≤ sub) && decide (sub ≤ 0x15)) ||
  (ix == 0x1200 && sub == 0x0B) || (decide (0x1240 ≤ ix) && decide (ix ≤ 0x1244))

/-- The SSP turns the access away because the part is not READY (R355); recorded as kind 4 (log entry 5). -/
def sspClosed (d : Device) (p : Port) (write : Bool) (ix sub : Nat) : Bool :=
  p == .ssp && !d.ready && !(sspServes write ix sub)

/-- The stated values of the objects whose range is neither a list nor an interval (R400, R307, R294, R298, R300,
R336, R350, R56). -/
def specialOk (d : Device) (ix sub v : Nat) : Bool :=
  if ix = 0x1100 ∧ sub = 0x01 then decide (0x0600 ≤ v) && v != 0x0800 && v != 0x86DD && v != 0x88F7
  else if ix = 0x1100 ∧ sub = 0x04 then v != 254
  else if ix = 0x1500 ∧ sub = 0x05 then decide (v ≤ 31) || v == 255
  else if ix = 0x1500 then decide (v < 256) && decide (v % 4 ≤ 2)
  else if 0x1540 ≤ ix ∧ ix < 0x1550 then
    decide (fld v 12 1 < 8) && decide (fld v 13 1 < 16) && fld v 14 2 == 0 &&
    !(bit (fld v 12 1) 2 && ((ix - 0x1540) * 16 + sub - 1 == 61 || (ix - 0x1540) * 16 + sub - 1 == 62))
  else if 0x1580 ≤ ix ∧ ix < 0x1588 then
    (List.range 8).all fun k => decide (fld v k 1 ≤ 0x37) || fld v k 1 == 0xFF
  else if 0x1241 ≤ ix ∧ ix ≤ 0x1244 then
    (List.range 9).any fun k => v == 16 * 2 ^ k
  else if ix = 0x1210 then v == d.o 0x1210 0x05 + 1 && decide (v ≤ 64)
  else if ix = 0x1000 then decide (v % 65536 ≤ 32)
  else if ix = 0x1240 then decide (v % 65536 ≤ 256)
  else true

/-- The value lies among the object's stated values (R61 kind 3). -/
def valueOk (d : Device) (ix sub v : Nat) : Bool :=
  match findRow ix sub with
  | none => true
  | some r =>
    match r.range with
    | .any => true
    | .one x => v == x
    | .le hi => decide (v ≤ hi)
    | .rng lo hi => decide (lo ≤ v) && decide (v ≤ hi)
    | .special => d.specialOk ix sub v

/-- A level or current object keeps the low 24 bits of each code (R5). -/
def codeValue : Nat → Nat → Nat
  | 0, _ => 0
  | n + 1, v => code24 (v % 2 ^ 32) + 2 ^ 32 * codeValue n (v / 2 ^ 32)

/-- A written value as the object holds it (R5). -/
def heldValue (ix sub v : Nat) : Nat :=
  match findRow ix sub with
  | some r => if r.code then codeValue (r.size / 4) v else v
  | none => v

/-- The violation kind that a write meets, if any, in the order of R61; `forbidden` is the block's own kind 4. -/
def writeKind (d : Device) (p : Port) (ix sub v : Nat) (forbidden : Bool) : Option Nat :=
  match d.accessKind p true ix sub with
  | some k => some k
  | none =>
    if !(d.valueOk ix sub v) then some kindValue
    else if d.sspClosed p true ix sub || forbidden then some kindState
    else none

/-- A host write to the object `ix.sub`: before ring join the ring port is not served (R42); a violation is recorded
and changes nothing (R61); else the object's effect. -/
def hostWrite (d : Device) (p : Port) (ix sub v : Nat) (forbidden : Bool) (effect : Device → Device) : Device :=
  if p = .ring ∧ d.joined = false then d
  else match d.writeKind p ix sub v forbidden with
    | some k => d.violate p ix sub k
    | none => effect d

/-! ## Staging and commit (R59) -/

/-- Applies an operation for each member of a list, in order. -/
def each {α : Type} (f : α → Device → Device) : List α → Device → Device
  | [], d => d
  | n :: ns, d => each f ns (f n d)

/-- The staging copy of each object copied into its pending copy. -/
def stage (ks : List Nat) (d : Device) : Device := each (fun k e => e.put (pkey k) (e.get k)) ks d

/-- The pending copies discarded. -/
def unstage (ks : List Nat) (d : Device) : Device := each (fun k e => e.put (pkey k) 0) ks d

/-- The pending copies made active. -/
def activate (ks : List Nat) (d : Device) : Device := each (fun k e => e.put (akey k) (e.get (pkey k))) ks d

def pends (d : Device) (b : Block) : Bool := d.pend.contains b
def addPend (d : Device) (b : Block) : Device := { d with pend := d.pend.filter (fun x => x != b) ++ [b] }
def dropPend (d : Device) (b : Block) : Device := { d with pend := d.pend.filter fun x => x != b }

/-- A write of 1 to the commit object of block `b` with the staged objects `ks` and the status at `st` (R59): an
earlier pending commit is discarded, the staging copy is copied and checked, and the status reads PENDING or the
refusal code. -/
def commitWrite (b : Block) (ks : List Nat) (st : Nat) (check : Device → Nat) (d : Device) : Device :=
  let d1 := stage ks d
  let c := check d1
  if c = 0 then (d1.addPend b).put st codePending
  else ((unstage ks d1).dropPend b).put st c

/-- The boundary of block `b` (R59): the pending copy is checked again and applied, with `after` the effects the
block's chapter adds, or refused. -/
def commitBoundary (b : Block) (ks : List Nat) (st : Nat) (check : Device → Nat) (after : Device → Device)
    (d : Device) : Device :=
  if d.pends b then
    let c := check d
    if c = 0 then after (((unstage ks (activate ks d)).dropPend b).put st codeAccepted)
    else ((unstage ks d).dropPend b).put st c
  else d

/-- Keys of the staged objects `lo` to `lo + n - 1` of an index. -/
def subKeys (ix lo n : Nat) : List Nat := (List.range n).map fun i => okey ix (lo + i)

/-! ## Memories -/

/-- The tile whose SDRAM holds a global address: each tile's map starts at t * 2^36 (0x1640.03, R247). -/
def addrTile (a : Nat) : Nat := a / 2 ^ 36
def tileBase (t : Nat) : Nat := t * 2 ^ 36

/-- The part of the address map that a global address lies in: its tile, and address bit 7 (R248). -/
def addrSlot (a : Nat) : Nat := 2 * addrTile a + a / 128 % 2

/-- The SDRAM channel behind a part of the address map (R248): with four ways bit 7 picks the tile's channel, with two ways both
parts go to the one that is populated. -/
def slotChan (d : Device) (z : Nat) : Nat :=
  let t := z / 2
  if d.o (0x1640 + t) 0x01 = 2 then (if d.act (0x1610 + 2 * t) 0x01 = 0 then 2 * t + 1 else 2 * t) else z

/-- The parts of the address map that channel `k` holds. -/
def chanSlots (d : Device) (k : Nat) : List Nat := [2 * (k / 2), 2 * (k / 2) + 1].filter fun z => d.slotChan z == k

/-- `v` with each of the bits `ks` set or cleared. -/
def setBits (ks : List Nat) (b : Bool) (v : Nat) : Nat := ks.foldl (fun m k => setBit m k b) v

/-- The SDRAM channel of a global address (R248). -/
def addrChan (d : Device) (a : Nat) : Nat := d.slotChan (addrSlot a)

/-- The subchannel of a global address (R246, R248). -/
def addrSub (d : Device) (a : Nat) : Nat := 2 * d.addrChan a + a / 64 % 2

/-- What an unlisted SDRAM byte reads as: 0 where its channel is zero-filled, else the free value (R264; log entry 3). -/
def sdramDefault (d : Device) (a : Nat) : Byte :=
  if bit d.mem.zeroFilled (addrSlot a) then 0 else Config.unwrittenByte a

def sdramByte (d : Device) (a : Nat) : Byte := Cells.read (d.sdramDefault a) a d.mem.sdram

def sdramPut (d : Device) (a : Nat) (b : Byte) : Device :=
  { d with mem := { d.mem with sdram := Cells.write (d.sdramDefault a) a b d.mem.sdram } }

def sdramRead (d : Device) (a : Nat) : Nat → List Byte
  | 0 => []
  | n + 1 => d.sdramByte a :: sdramRead d (a + 1) n

def sdramWrite : Nat → List Byte → Device → Device
  | _, [], d => d
  | a, b :: bs, d => sdramWrite (a + 1) bs (d.sdramPut a b)

/-- The units of `u` bytes that lie whole within `n` bytes from `a`. -/
def wholeUnits (u a n : Nat) : List Nat := (List.range ((a + n) / u - ceilDiv a u)).map fun i => ceilDiv a u + i

/-- Bytes stored to SDRAM: a burst written whole is no longer poisoned, one written in part keeps its poison (R260). -/
def sdramStore (a : Nat) (bs : List Byte) (d : Device) : Device :=
  let whole := wholeUnits 64 a bs.length
  let d1 := sdramWrite a bs d
  { d1 with mem := { d1.mem with sdramPoison := d1.mem.sdramPoison.filter (fun x => !(whole.contains x)),
                                 sdramWritten := d1.mem.sdramWritten.filter (fun x => !(whole.contains x)) ++ whole } }

/-- Whether a 64-byte burst reads as poisoned (R260); a burst of a channel that was not zero-filled and has never been
written whole reads as poison or not, a free value (R264). -/
def burstPoisoned (d : Device) (b : Nat) : Bool :=
  d.mem.sdramPoison.contains b ||
  (!(bit d.mem.zeroFilled (addrSlot (64 * b))) && !(d.mem.sdramWritten.contains b) && Config.unwrittenPoison b)

/-- Whether any burst of `n` bytes from `a` is poisoned. -/
def sdramPoisoned (d : Device) (a n : Nat) : Bool :=
  (List.range ((a % 64 + n + 63) / 64)).any fun i => d.burstPoisoned (a / 64 + i)

/-- The populated SDRAM of a tile accepts accesses: at least one channel, and every populated one READY (R265). -/
def memReady (d : Device) (t : Nat) : Bool :=
  d.o (0x1640 + t) 0x01 != 0 &&
  [2 * t, 2 * t + 1].all fun k => d.act (0x1610 + k) 0x01 == 0 || d.o (0x1610 + k) 0x03 == 3

def tileCapacity (d : Device) (t : Nat) : Nat := d.o (0x1640 + t) 0x02

/-- `n` bytes at a tile-local offset lie within the tile's populated SDRAM. -/
def inTile (d : Device) (t off n : Nat) : Bool := decide (off + n ≤ d.tileCapacity t)

/-- The key of a byte of cluster SRAM. -/
def sramKey (c off : Nat) : Nat := c * 2 ^ 20 + off

def sramByte (d : Device) (k : Nat) : Byte := Cells.read 0 k d.mem.sram

def sramPut (d : Device) (k : Nat) (b : Byte) : Device :=
  { d with mem := { d.mem with sram := Cells.write 0 k b d.mem.sram } }

def sramRead (d : Device) (k : Nat) : Nat → List Byte
  | 0 => []
  | n + 1 => d.sramByte k :: sramRead d (k + 1) n

def sramWrite : Nat → List Byte → Device → Device
  | _, [], d => d
  | k, b :: bs, d => sramWrite (k + 1) bs (d.sramPut k b)

/-- The words of `n` bytes of cluster SRAM from key `k` that fail parity (R286). -/
def sramBadWords (d : Device) (k n : Nat) : List Nat :=
  (((List.range ((k % 4 + n + 3) / 4)).map fun i => k / 4 + i).filter fun x => d.mem.sramPoison.contains x)

/-- Bytes stored to cluster SRAM: a 32-bit word written whole has good parity; one written in part is read for the merge, counts
where that read fails parity, and keeps bad parity (R286). -/
def sramStore (k : Nat) (bs : List Byte) (d : Device) : Device :=
  let whole := wholeUnits 4 k bs.length
  let merged := (d.sramBadWords k bs.length).filter fun x => !(whole.contains x)
  let d1 := sramWrite k bs (d.addWrap 0x1700 0x04 8 merged.length)
  { d1 with mem := { d1.mem with sramPoison := d1.mem.sramPoison.filter fun x => !(whole.contains x) } }

def sramPoisoned (d : Device) (k n : Nat) : Bool := !(d.sramBadWords k n).isEmpty

/-! ## Sites (R11, R13) -/

/-- The 128-bit active quad mask of a site. -/
def siteMask (d : Device) (s : Nat) : Nat := d.act (siteIx s) 0x01 + 2 ^ 64 * d.act (siteIx s) 0x02

/-- The quads of a mask, rising. -/
def maskQuads (m : Nat) : List Nat := (List.range 128).filter fun q => m.testBit q

def siteQuads (d : Device) (s : Nat) : List Nat := maskQuads (d.siteMask s)

/-- The tiles of a mask, as a mask (0x2400+s.06). -/
def maskTiles (m : Nat) : Nat :=
  (List.range 8).foldl (fun a t => if bitf m (16 * t) 16 = 0 then a else a + 2 ^ t) 0

def siteTiles (d : Device) (s : Nat) : List Nat := (List.range 8).filter fun t => bit (maskTiles (d.siteMask s)) t
def leadQuad (d : Device) (s : Nat) : Nat := d.o (siteIx s) 0x03
def hostCluster (d : Device) (s : Nat) : Nat := d.o (siteIx s) 0x04
def siteState (d : Device) (s : Nat) : Nat := d.o (siteIx s) 0x05
def setSiteState (d : Device) (s v : Nat) : Device := d.w (siteIx s) 0x05 v

def siteDisabled : Nat := 0
def siteIdle : Nat := 1
def siteRunning : Nat := 2
def siteWaiting : Nat := 3

/-- The site is RUNNING or WAITING. -/
def siteBusy (d : Device) (s : Nat) : Bool := decide (siteRunning ≤ d.siteState s)

/-- The site whose active mask holds quad `q`. -/
def siteOf (d : Device) (q : Nat) : Option Nat := (List.range 128).find? fun s => (d.siteMask s).testBit q

/-- The site's channels in order. -/
def siteChans (d : Device) (s : Nat) : List Nat := (d.siteQuads s).flatMap fun q => [4 * q, 4 * q + 1, 4 * q + 2, 4 * q + 3]

/-- The supervisor's half (0x1220.04: 0 W, 1 E, 2 none) holds a core that runs (0x1230+h.01, R340). -/
def supervisorRuns (d : Device) : Bool :=
  decide (d.o 0x1220 0x04 ≤ 1) && d.o (0x1230 + d.o 0x1220 0x04) 0x01 == 1

/-- The tile's PLLs are locked (R26). -/
def clocked (d : Device) (t : Nat) : Bool := !(bit d.relock t)

/-! ## Per-unit records -/

def seqOf (d : Device) (s : Nat) : Seq := Cells.read Seq.init s d.sites.seq
def setSeq (d : Device) (s : Nat) (x : Seq) : Device :=
  { d with sites := { d.sites with seq := Cells.write Seq.init s x d.sites.seq } }
def streamOf (d : Device) (q : Nat) : Stream := Cells.read Stream.init q d.sites.stream
def setStream (d : Device) (q : Nat) (x : Stream) : Device :=
  { d with sites := { d.sites with stream := Cells.write Stream.init q x d.sites.stream } }
def flowOf (d : Device) (s : Nat) : Flow := Cells.read Flow.init s d.sites.flow
def setFlow (d : Device) (s : Nat) (x : Flow) : Device :=
  { d with sites := { d.sites with flow := Cells.write Flow.init s x d.sites.flow } }
def dacOf (d : Device) (q : Nat) : Dac := Cells.read Dac.init q d.pins.dac
def setDac (d : Device) (q : Nat) (x : Dac) : Device :=
  { d with pins := { d.pins with dac := Cells.write Dac.init q x d.pins.dac } }
def pinOf (d : Device) (n : Nat) : Pin := Cells.read Pin.init n d.pins.pin
def setPin (d : Device) (n : Nat) (x : Pin) : Device :=
  { d with pins := { d.pins with pin := Cells.write Pin.init n x d.pins.pin } }
def chanMon (d : Device) (n : Nat) : Monitor := Cells.read Monitor.init n d.pins.chanMon
def setChanMon (d : Device) (n : Nat) (x : Monitor) : Device :=
  { d with pins := { d.pins with chanMon := Cells.write Monitor.init n x d.pins.chanMon } }
def tmuOf (d : Device) (n : Nat) : Tmu := Cells.read Tmu.init n d.pins.tmu
def setTmu (d : Device) (n : Nat) (x : Tmu) : Device :=
  { d with pins := { d.pins with tmu := Cells.write Tmu.init n x d.pins.tmu } }
def ppmuSkip (d : Device) (n : Nat) : Nat := Cells.read 0 n d.pins.ppmuSkip
def setPpmuSkip (d : Device) (n v : Nat) : Device :=
  { d with pins := { d.pins with ppmuSkip := Cells.write 0 n v d.pins.ppmuSkip } }
def convOf (d : Device) (n : Nat) : Converted := Cells.read Converted.init n d.pins.conv
def setConv (d : Device) (n : Nat) (x : Converted) : Device :=
  { d with pins := { d.pins with conv := Cells.write Converted.init n x d.pins.conv } }
def dpsConvOf (d : Device) (k : Nat) : Converted := Cells.read Converted.init k d.dps.conv
def setDpsConv (d : Device) (k : Nat) (x : Converted) : Device :=
  { d with dps := { d.dps with conv := Cells.write Converted.init k x d.dps.conv } }
def dpsOf (d : Device) (k : Nat) : DpsChan := Cells.read DpsChan.init k d.dps.chan
def setDps (d : Device) (k : Nat) (x : DpsChan) : Device :=
  { d with dps := { d.dps with chan := Cells.write DpsChan.init k x d.dps.chan } }
def monV (d : Device) (k : Nat) : Monitor := Cells.read Monitor.init k d.dps.monV
def setMonV (d : Device) (k : Nat) (x : Monitor) : Device :=
  { d with dps := { d.dps with monV := Cells.write Monitor.init k x d.dps.monV } }
def monI (d : Device) (k : Nat) : Monitor := Cells.read Monitor.init k d.dps.monI
def setMonI (d : Device) (k : Nat) (x : Monitor) : Device :=
  { d with dps := { d.dps with monI := Cells.write Monitor.init k x d.dps.monI } }
def acqOf (d : Device) (c : Nat) : Acq := Cells.read Acq.init c d.dps.acq
def setAcq (d : Device) (c : Nat) (x : Acq) : Device :=
  { d with dps := { d.dps with acq := Cells.write Acq.init c x d.dps.acq } }
def subOf (d : Device) (j : Nat) : SubState := Cells.read SubState.init j d.mem.sub
def setSub (d : Device) (j : Nat) (x : SubState) : Device :=
  { d with mem := { d.mem with sub := Cells.write SubState.init j x d.mem.sub } }
def queueOf (d : Device) (q : Nat) : QueueState := Cells.read QueueState.init q d.mem.queue
def setQueue (d : Device) (q : Nat) (x : QueueState) : Device :=
  { d with mem := { d.mem with queue := Cells.write QueueState.init q x d.mem.queue } }
def headOf (d : Device) (h : Nat) : HeadState := Cells.read HeadState.init h d.heads
def setHead (d : Device) (h : Nat) (x : HeadState) : Device :=
  { d with heads := Cells.write HeadState.init h x d.heads }
def calOf (d : Device) (t : Nat) : Cal := Cells.read Cal.init t d.power.cal
def setCal (d : Device) (t : Nat) (x : Cal) : Device :=
  { d with power := { d.power with cal := Cells.write Cal.init t x d.power.cal } }
/-- The coefficient set in force of calibration unit `i` of tile `t`; none while its fuse trims stand (R367). -/
def coefsOf (d : Device) (t i : Nat) : Option Coefs := Cells.read none (137 * t + i) d.power.coefs

/-- A channel's history record (R367). -/
def historyKey (n : Nat) : Nat := okey (0x1420 + n / 128) (1 + n % 128)

/-- Channel `n` still runs on its fuse trims, in timing (`off` 0) or level (`off` 1) (R367). -/
def onTrims (d : Device) (n off : Nat) : Bool := bit (fld (d.get (historyKey n)) 28 1) off
def bankOf (d : Device) (b : Nat) : Bank := Cells.read Bank.init b d.event.banks
def setBank (d : Device) (b : Nat) (x : Bank) : Device :=
  { d with event := { d.event with banks := Cells.write Bank.init b x d.event.banks } }

/-! ## Status with events of its own -/

/-- A guarantee condition of the ledger (bits 0 to 2); bit 3 is their conjunction, and its fall raises EV059 (R292,
R293). -/
def setGuarantee (d : Device) (b : Nat) (v : Bool) : Device :=
  let was := d.o 0x1780 0x01
  let low := setBit (was % 8) b v % 8
  let d1 := d.w 0x1780 0x01 (if low = 7 then 15 else low)
  if bit was 3 && low != 7 then d1.raise 59 else d1

/-- The tile of a ledger scope (R289): the scope is a tile, a site, a DPS channel, a subchannel or a source; 8 for the
part. -/
def scopeTile (d : Device) (inv unit : Nat) : Nat :=
  if inv = 3 then d.hostCluster unit / 4
  else if inv = 4 then unit / 8
  else if inv = 6 then unit / 4
  else if inv = 7 then (if unit < 64 then unit / 8 else (unit - 64) / 24)
  else if inv = 8 then 8
  else unit

/-- The place of a tile and invariant in the records of R292. -/
def scopeSlot (tile inv : Nat) : Nat := if inv = 8 then 64 else 8 * tile + (inv - 1)

def baselineOf (d : Device) (inv unit : Nat) : Int := Cells.read 0 (inv * 1024 + unit) d.ledger.base

/-- The record 0x1780.08 shows the largest baseline of each tile and invariant (R292). -/
def settleBaseline (inv t : Nat) (d : Device) : Device :=
  let mine := d.ledger.base.filter fun p => p.1 / 1024 == inv && d.scopeTile inv (p.1 % 1024) == t
  let big := mine.foldl (fun (m : Int) p => if m.natAbs < p.2.natAbs then p.2 else m) 0
  if t ≤ 8 then d.w 0x1780 0x08 (setFld (d.o 0x1780 0x08) (8 * scopeSlot t inv) 8 (ux 64 big)) else d

/-- The baseline of a scope is set (R292). -/
def setBaseline (inv unit : Nat) (v : Int) (d : Device) : Device :=
  settleBaseline inv (d.scopeTile inv unit)
    { d with ledger := { d.ledger with base := Cells.write 0 (inv * 1024 + unit) v d.ledger.base } }

/-- Channel state at its pin: DZ (R91). -/
def parkChan (d : Device) (n : Nat) : Device := d.setPin n Pin.init

def parkChans (ns : List Nat) (d : Device) : Device := each (fun n e => e.parkChan n) ns d

end Device

/-- The outcome that goes on with the block in state `d`, the queue of waiting commands as it is. While PORST_N is low the
part is held in reset and nothing changes it (R388); the pin is an input, which no other command moves. -/
def nextDev (s : State) (d : Device) : Host.Outcome State Fault Refusal :=
  .next { s with dev := if s.dev.boot.held then s.dev else { d with boot := { d.boot with held := false } } }

end Sys2Proof.Machine
end

