-- ==== Sys2Proof/Machine/Crc.lean ====
section
/-!
DEFINITION. The checksums of the spec: CRC-32 of IEEE 802.3 (R34, R260, R327, R337) and the CRC-8 of the SSP (R352).
-/
namespace Sys2Proof.Machine

/-- One bit of the reflected CRC-32 with polynomial 0x04C11DB7. -/
def crc32Bit (c : Nat) : Nat := if c % 2 = 1 then (c / 2) ^^^ 0xEDB88320 else c / 2

def crc32Bits : Nat → Nat → Nat
  | 0, c => c
  | n + 1, c => crc32Bits n (crc32Bit c)

/-- The running CRC-32 after one more byte. -/
def crc32Byte (c b : Nat) : Nat := crc32Bits 8 (c ^^^ b)

/-- The running CRC-32 after more bytes. -/
def crc32Run (c : Nat) (bs : List Byte) : Nat := bs.foldl (fun a b => crc32Byte a b.toNat) c

/-- The final inversion. -/
def crc32Final (c : Nat) : Nat := c ^^^ 0xFFFFFFFF

/-- CRC-32 with the initial value 0xFFFFFFFF and a final inversion. -/
def crc32 (bs : List Byte) : Nat := crc32Final (crc32Run 0xFFFFFFFF bs)

end Sys2Proof.Machine
end

