-- ==== Sys2Proof/Machine/Crypto.lean ====
section
/-!
DEFINITION. The cryptography that the spec names: SHA-256 and HMAC-SHA-256 (R58), SHA-384 (R338), and the verification of
an ECDSA P-384 signature as in FIPS 186-5 (R338). R58 and R338 name these functions; their constants are those of FIPS
180-4 and FIPS 186-5 (PRESUMED, log entry 70).
-/
namespace Sys2Proof.Machine

/-! ## SHA-2 -/

def shaK0 : List Nat :=
  [0x428A2F98D728AE22, 0x7137449123EF65CD, 0xB5C0FBCFEC4D3B2F, 0xE9B5DBA58189DBBC,
   0x3956C25BF348B538, 0x59F111F1B605D019, 0x923F82A4AF194F9B, 0xAB1C5ED5DA6D8118,
   0xD807AA98A3030242, 0x12835B0145706FBE, 0x243185BE4EE4B28C, 0x550C7DC3D5FFB4E2,
   0x72BE5D74F27B896F, 0x80DEB1FE3B1696B1, 0x9BDC06A725C71235, 0xC19BF174CF692694,
   0xE49B69C19EF14AD2, 0xEFBE4786384F25E3, 0x0FC19DC68B8CD5B5, 0x240CA1CC77AC9C65]
def shaK1 : List Nat :=
  [0x2DE92C6F592B0275, 0x4A7484AA6EA6E483, 0x5CB0A9DCBD41FBD4, 0x76F988DA831153B5,
   0x983E5152EE66DFAB, 0xA831C66D2DB43210, 0xB00327C898FB213F, 0xBF597FC7BEEF0EE4,
   0xC6E00BF33DA88FC2, 0xD5A79147930AA725, 0x06CA6351E003826F, 0x142929670A0E6E70,
   0x27B70A8546D22FFC, 0x2E1B21385C26C926, 0x4D2C6DFC5AC42AED, 0x53380D139D95B3DF,
   0x650A73548BAF63DE, 0x766A0ABB3C77B2A8, 0x81C2C92E47EDAEE6, 0x92722C851482353B]
def shaK2 : List Nat :=
  [0xA2BFE8A14CF10364, 0xA81A664BBC423001, 0xC24B8B70D0F89791, 0xC76C51A30654BE30,
   0xD192E819D6EF5218, 0xD69906245565A910, 0xF40E35855771202A, 0x106AA07032BBD1B8,
   0x19A4C116B8D2D0C8, 0x1E376C085141AB53, 0x2748774CDF8EEB99, 0x34B0BCB5E19B48A8,
   0x391C0CB3C5C95A63, 0x4ED8AA4AE3418ACB, 0x5B9CCA4F7763E373, 0x682E6FF3D6B2B8A3,
   0x748F82EE5DEFB2FC, 0x78A5636F43172F60, 0x84C87814A1F0AB72, 0x8CC702081A6439EC]
def shaK3 : List Nat :=
  [0x90BEFFFA23631E28, 0xA4506CEBDE82BDE9, 0xBEF9A3F7B2C67915, 0xC67178F2E372532B,
   0xCA273ECEEA26619C, 0xD186B8C721C0C207, 0xEADA7DD6CDE0EB1E, 0xF57D4F7FEE6ED178,
   0x06F067AA72176FBA, 0x0A637DC5A2C898A6, 0x113F9804BEF90DAE, 0x1B710B35131C471B,
   0x28DB77F523047D84, 0x32CAAB7B40C72493, 0x3C9EBE0A15C9BEBC, 0x431D67C49C100D4C,
   0x4CC5D4BECB3E42B6, 0x597F299CFC657E2A, 0x5FCB6FAB3AD6FAEC, 0x6C44198C4A475817]

/-- The 80 round constants of SHA-384; the first 64, cut to their upper halves, are those of SHA-256. -/
def shaK : List Nat := shaK0 ++ shaK1 ++ shaK2 ++ shaK3

/-- What tells the two hash functions apart: word width in bits, rounds, shift amounts of the six functions, and the round
constants and start values. -/
structure Sha where
  w : Nat
  k : List Nat
  iv : List Nat
  big0 : Nat × Nat × Nat
  big1 : Nat × Nat × Nat
  small0 : Nat × Nat × Nat
  small1 : Nat × Nat × Nat
deriving DecidableEq, Repr

def sha256Params : Sha :=
  { w := 32, k := (shaK.take 64).map fun x => x / 2 ^ 32,
    iv := [0x6A09E667, 0xBB67AE85, 0x3C6EF372, 0xA54FF53A,
      0x510E527F, 0x9B05688C, 0x1F83D9AB, 0x5BE0CD19],
    big0 := (2, 13, 22), big1 := (6, 11, 25), small0 := (7, 18, 3), small1 := (17, 19, 10) }

def sha384Params : Sha :=
  { w := 64, k := shaK,
    iv := [0xCBBB9D5DC1059ED8, 0x629A292A367CD507, 0x9159015A3070DD17,
      0x152FECD8F70E5939, 0x67332667FFC00B31, 0x8EB44A8768581511,
      0xDB0C2E0D64F98FA7, 0x47B5481DBEFA4FA4],
    big0 := (28, 34, 39), big1 := (14, 18, 41), small0 := (1, 8, 7), small1 := (19, 61, 6) }

/-- Rotation right by `n` in a `w`-bit word. -/
def rotr (w n x : Nat) : Nat := x / 2 ^ n + x % 2 ^ n * 2 ^ (w - n)

/-- Three rotations; two rotations and a shift. -/
def shaBig (w : Nat) (r : Nat × Nat × Nat) (x : Nat) : Nat := rotr w r.1 x ^^^ rotr w r.2.1 x ^^^ rotr w r.2.2 x
def shaSmall (w : Nat) (r : Nat × Nat × Nat) (x : Nat) : Nat := rotr w r.1 x ^^^ rotr w r.2.1 x ^^^ (x / 2 ^ r.2.2)

/-- Words of `bytes` bytes, most significant byte first. -/
def beWords (bytes : Nat) : Nat → List Byte → List Nat
  | 0, _ => []
  | n + 1, l => ofBE (l.take bytes) :: beWords bytes n (l.drop bytes)

/-- The schedule's next word, from the last 16, newest first. -/
def shaNext (p : Sha) (l : List Nat) : Nat :=
  (shaSmall p.w p.small1 (l.getD 1 0) + l.getD 6 0 + shaSmall p.w p.small0 (l.getD 14 0) + l.getD 15 0) % 2 ^ p.w

/-- The schedule, newest first, extended by `n` words. -/
def shaSchedule (p : Sha) : Nat → List Nat → List Nat
  | 0, l => l
  | n + 1, l => shaSchedule p n (shaNext p l :: l)

/-- One round on the working variables a to h. -/
def shaRound (p : Sha) (v : List Nat) (k m : Nat) : List Nat :=
  let a := v.getD 0 0
  let b := v.getD 1 0
  let c := v.getD 2 0
  let e := v.getD 4 0
  let f := v.getD 5 0
  let g := v.getD 6 0
  let choose := (e &&& f) ^^^ ((2 ^ p.w - 1 - e) &&& g)
  let t1 := v.getD 7 0 + shaBig p.w p.big1 e + choose + k + m
  let t2 := shaBig p.w p.big0 a + ((a &&& b) ^^^ (a &&& c) ^^^ (b &&& c))
  [(t1 + t2) % 2 ^ p.w, a, b, c, (v.getD 3 0 + t1) % 2 ^ p.w, e, f, g]

def shaRounds (p : Sha) : List Nat → List (Nat × Nat) → List Nat
  | v, [] => v
  | v, km :: l => shaRounds p (shaRound p v km.1 km.2) l

/-- One block into the hash value. -/
def shaBlock (p : Sha) (h : List Nat) (block : List Byte) : List Nat :=
  let first := (beWords (p.w / 8) 16 block).reverse
  let sched := (shaSchedule p (p.k.length - 16) first).reverse
  (h.zip (shaRounds p h (p.k.zip sched))).map fun x => (x.1 + x.2) % 2 ^ p.w

def shaBlocks (p : Sha) : Nat → List Nat → List Byte → List Nat
  | 0, h, _ => h
  | n + 1, h, l => shaBlocks p n (shaBlock p h (l.take (2 * p.w))) (l.drop (2 * p.w))

/-- `n` bytes of `v`, most significant first. -/
def beBytes (n v : Nat) : List Byte := (leBytes n v).reverse

/-- The padded message. -/
def shaPad (p : Sha) (l : List Byte) : List Byte :=
  let block := 2 * p.w
  let len := p.w / 4
  let zeros := (2 * block - 1 - len - l.length % block) % block
  l ++ [0x80] ++ List.replicate zeros 0 ++ beBytes len (8 * l.length)

/-- The hash value as words. -/
def shaWords (p : Sha) (l : List Byte) : List Nat :=
  let m := shaPad p l
  shaBlocks p (m.length / (2 * p.w)) p.iv m

/-- SHA-256, 32 bytes. -/
def sha256 (l : List Byte) : List Byte := (shaWords sha256Params l).flatMap (beBytes 4)

/-- SHA-384, 48 bytes. -/
def sha384 (l : List Byte) : List Byte := ((shaWords sha384Params l).take 6).flatMap (beBytes 8)

/-- HMAC-SHA-256 with a key of at most 64 bytes. -/
def hmacSha256 (key msg : List Byte) : List Byte :=
  let k := key ++ List.replicate (64 - key.length) 0
  sha256 (k.map (fun b => b ^^^ 0x5C) ++ sha256 (k.map (fun b => b ^^^ 0x36) ++ msg))

/-! ## ECDSA on P-384 -/

def p384P : Nat := 2 ^ 384 - 2 ^ 128 - 2 ^ 96 + 2 ^ 32 - 1
def p384N : Nat :=
  0xffffffffffffffffffffffffffffffffffffffffffffffffc7634d81f4372ddf581a0db248b0a77aecec196accc52973
def p384B : Nat :=
  0xb3312fa7e23ee7e4988e056be3f82d19181d9c6efe8141120314088f5013875ac656398d8a2ed19d2a85c8edd3ec2aef
def p384Gx : Nat :=
  0xaa87ca22be8b05378eb1c71ef320ad746e1d3b628ba79b9859f741e082542a385502f25dbf55296c3a545e3872760ab7
def p384Gy : Nat :=
  0x3617de4a96262c6f5d9e98bf9292dc29f8f41dbd289a147ce9da3113b5f0b8c00a60b1ce1d7e819d7a431d7c90ea0e5f

/-- `b` to the power of the low `n` bits of `e`, modulo `m`. -/
def powMod (m : Nat) : Nat → Nat → Nat → Nat
  | 0, _, _ => 1 % m
  | n + 1, b, e => powMod m n (b * b % m) (e / 2) * (if e % 2 = 1 then b else 1) % m

/-- The inverse modulo a prime. -/
def invMod (m x : Nat) : Nat := powMod m 384 x (m - 2)

/-- A point in Jacobian coordinates; z = 0 is the point at infinity. -/
structure Jac where
  x : Nat
  y : Nat
  z : Nat
deriving DecidableEq, Repr

/-- Subtraction modulo the field prime. -/
def subP (a b : Nat) : Nat := (a + p384P - b) % p384P

def Jac.double (a : Jac) : Jac :=
  if a.z = 0 ∨ a.y = 0 then ⟨1, 1, 0⟩
  else
    let yy := a.y * a.y % p384P
    let s := 4 * a.x * yy % p384P
    let zz := a.z * a.z % p384P
    let m := 3 * (subP a.x zz) * (a.x + zz) % p384P
    let x := subP (m * m % p384P) (2 * s % p384P)
    ⟨x, subP (m * subP s x % p384P) (8 * yy * yy % p384P), 2 * a.y * a.z % p384P⟩

def Jac.add (a b : Jac) : Jac :=
  if a.z = 0 then b
  else if b.z = 0 then a
  else
    let za := a.z * a.z % p384P
    let zb := b.z * b.z % p384P
    let u1 := a.x * zb % p384P
    let u2 := b.x * za % p384P
    let s1 := a.y * zb * b.z % p384P
    let s2 := b.y * za * a.z % p384P
    if u1 = u2 then (if s1 = s2 then a.double else ⟨1, 1, 0⟩)
    else
      let h := subP u2 u1
      let r := subP s2 s1
      let hh := h * h % p384P
      let hhh := h * hh % p384P
      let v := u1 * hh % p384P
      let x := subP (subP (r * r % p384P) hhh) (2 * v % p384P)
      ⟨x, subP (r * subP v x % p384P) (s1 * hhh % p384P), h * a.z * b.z % p384P⟩

/-- The low `n` bits of `k` times a point. -/
def Jac.times : Nat → Nat → Jac → Jac
  | 0, _, _ => ⟨1, 1, 0⟩
  | n + 1, k, a =>
    let r := Jac.times n (k / 2) a.double
    if k % 2 = 1 then a.add r else r

/-- The point lies on the curve with coordinates in the field. -/
def onCurve (x y : Nat) : Bool :=
  decide (x < p384P) && decide (y < p384P) && y * y % p384P == (x * x * x + (p384P - 3) * x + p384B) % p384P

/-- Verification of the signature (r, s) of a 384-bit digest under the public key (x, y) (R338). -/
def ecdsaVerify (x y r s digest : Nat) : Bool :=
  if r = 0 ∨ p384N ≤ r ∨ s = 0 ∨ p384N ≤ s ∨ onCurve x y = false then false
  else
    let w := invMod p384N s
    let a := Jac.times 384 (digest * w % p384N) ⟨p384Gx, p384Gy, 1⟩
    let b := Jac.times 384 (r * w % p384N) ⟨x, y, 1⟩
    let q := a.add b
    if q.z = 0 then false
    else
      let zi := invMod p384P q.z
      q.x * zi * zi % p384P % p384N == r

end Sys2Proof.Machine
end

