-- ==== Sys2Proof/Machine/Slot.lean ====
section
/-!
DEFINITION. The descriptors of CSP frames (R345, R346), and a boot slot as bytes: the header, the sections, the image digest and
why a slot fails (R333, R337, R338).
-/
namespace Sys2Proof.Machine

/-! ## Descriptors (R345) -/

def cspCommandBytes (x : Nat) : Nat := fld x 2 1
def cspAddressBytes (x : Nat) : Nat := fld x 3 1
def cspDummy (x : Nat) : Nat := fld x 4 1
def cspLength (x : Nat) : Nat := fld x 12 2
def cspWrites (x : Nat) : Bool := bit (fld x 7 1) 2
def cspHonoursRdy (x : Nat) : Bool := bit (fld x 7 1) 1

/-- Every phase is absent. -/
def cspEmpty (x : Nat) : Bool := cspCommandBytes x == 0 && cspAddressBytes x == 0 && cspDummy x == 0 && cspLength x == 0

/-- A DDR read without CSP_DQS at a clock above 100 MHz (R345, R346). -/
def cspFastDdr (x : Nat) : Bool :=
  bit (fld x 6 1) 2 && !(cspWrites x) && cspLength x != 0 && !(bit (fld x 7 1) 0) && fld x 14 1 == 0

/-- The descriptor may be run; `host` frames also name a select. -/
def cspGood (host : Bool) (x : Nat) : Bool :=
  decide (cspCommandBytes x ≤ 2) && decide (cspAddressBytes x ≤ 4) && decide (cspDummy x ≤ 31) && decide (fld x 5 1 < 64) &&
  decide (fld x 6 1 < 8) && decide (fld x 7 1 < 8) && (!host || decide (fld x 15 1 ≤ 3)) && !(cspFastDdr x)

/-- The descriptor drives a frame: it may be run and has a phase. -/
def cspDrives (x : Nat) : Bool := cspGood false x && !(cspEmpty x)

/-- The descriptor with an address and a length (R348, R350). -/
def cspPiece (x off len : Nat) : Nat := setFld (setFld x 8 4 off) 12 2 len

/-- The boot engine's read of the header (R348): command 0x13, 4 address bytes, one lane, SDR, 25 MHz; it honours CSP_RDY, whose
timeout R348 lets fail the slot (DEDUCED, log entry 75). -/
def headerRead (sel off : Nat) : Nat :=
  setFld (setFld (cspPiece (0x13 + 1 * 2 ^ 16 + 4 * 2 ^ 24 + 2 * 2 ^ 56) off 4096) 14 1 7) 15 1 sel

/-! ## The header (R337) -/

/-- The little-endian field of `n` bytes at an offset of the image. -/
def imageField (b : List Byte) (off n : Nat) : Nat := ofLE ((b.drop off).take n)

def imageLength (b : List Byte) : Nat := imageField b 8 4
def imageSections (b : List Byte) : Nat := imageField b 18 2
def imageFastRead (b : List Byte) : Nat := imageField b 144 16

/-- The descriptor of mode-switch frame `i`, and its 8 data bytes. -/
def switchDesc (b : List Byte) (i : Nat) : Nat := imageField b (48 + 24 * i) 16
def switchData (b : List Byte) (i : Nat) : List Byte := (b.drop (64 + 24 * i)).take 8

/-- Entry `i` of the section table. -/
def imageSection (b : List Byte) (i : Nat) : Section :=
  let e := 256 + 32 * i
  { typ := imageField b e 1, off := imageField b (e + 4) 4, len := imageField b (e + 8) 4, crc := imageField b (e + 12) 4 }

def sectionTable (b : List Byte) : List Section := (List.range (imageSections b)).map (imageSection b)

/-- The bytes of a section. -/
def sectionBytes (b : List Byte) (x : Section) : List Byte := (b.drop x.off).take x.len

/-- The sections of a type. -/
def sectionsOf (b : List Byte) (t : Nat) : List Section := (sectionTable b).filter fun x => x.typ == t

/-- The first section of a type, an empty one where there is none. -/
def sectionOf (b : List Byte) (t : Nat) : Section := (sectionsOf b t).headD ⟨t, 0, 0, 0⟩

/-- The bytes of the first section of a type. -/
def bytesOf (b : List Byte) (t : Nat) : List Byte := sectionBytes b (sectionOf b t)

/-- Whether a section's length is one that R337 gives its type. -/
def sectionLengthOk (b : List Byte) (x : Section) : Bool :=
  let n := x.len
  match x.typ with
  | 1 => decide (65536 ≤ n) && decide (n ≤ 33554432) && n % 65536 == 0
  | 2 => n == 48 * ((sectionOf b 1).len / 65536)
  | 3 => n == 49168
  | 4 => decide (1 ≤ n) && decide (n ≤ 262144)
  | 5 => n == 3072
  | 6 => true
  | _ => false

/-- The section lies after the header and inside the image at an offset that is a multiple of 64 (R337). -/
def sectionPlaced (b : List Byte) (x : Section) : Bool :=
  decide (4096 ≤ x.off) && x.off % 64 == 0 && decide (x.off + x.len ≤ imageLength b)

def sectionsApart (x y : Section) : Bool := decide (x.off + x.len ≤ y.off) || decide (y.off + y.len ≤ x.off)

/-- No two sections of the list overlap. -/
def allApart : List Section → Bool
  | [] => true
  | x :: l => l.all (sectionsApart x) && allApart l

/-- The magic and the format version. -/
def magicOk (b : List Byte) : Bool := imageField b 0 4 == 0x314B4247 && imageField b 4 2 == 1

/-- The header's reserved ranges as (offset, size), those of its section entries included. -/
def reservedFields (b : List Byte) : List (Nat × Nat) :=
  let n := imageSections b
  [(6, 2), (20, 28), (160, 96), (256 + 32 * n, 3840 - (256 + 32 * n)), (3937, 3), (4036, 60)] ++
    (List.range n).flatMap fun i => [(256 + 32 * i + 1, 3), (256 + 32 * i + 16, 16)]

/-- The CSP descriptors of the header are ones that the port may run (R345; log entry 75). -/
def headerFramesOk (b : List Byte) : Bool :=
  cspGood false (cspPiece (imageFastRead b) 0 1) && !(cspWrites (imageFastRead b)) &&
  [0, 1, 2, 3].all fun i => cspCommandBytes (switchDesc b i) == 0 || cspGood false (switchDesc b i)

/-- The header's fields as R337 asks; the training mode is one of the values of 0x1600.02. -/
def headerOk (b : List Byte) : Bool :=
  let n := imageSections b
  decide (4096 ≤ imageLength b) && decide (imageLength b ≤ 67108864) && decide (imageField b 12 4 ≤ 64) &&
  decide (imageField b 16 1 ≤ 1) && decide (imageField b 17 1 ≤ 1) && decide (5 ≤ n) && decide (n ≤ 32) &&
  ((reservedFields b).all fun r => imageField b r.1 r.2 == 0) && headerFramesOk b &&
  ((sectionTable b).all fun x => sectionLengthOk b x && sectionPlaced b x) && allApart (sectionTable b) &&
  ([1, 2, 3, 4, 5].all fun t => (sectionsOf b t).length == 1) && decide ((sectionsOf b 6).length ≤ 1)

/-- Whether the header alone lets the read of the slot go on. -/
def headerPasses (b : List Byte) : Bool := magicOk b && headerOk b

/-- What is judged of the sections' bytes: their CRCs, and the field of MICROCODE that is 0 (R337). -/
def sectionsOk (b : List Byte) : Bool :=
  ((sectionTable b).all fun x => crc32 (sectionBytes b x) == x.crc) && imageField (bytesOf b 3) 49162 2 == 0

/-! ## Authentication (R338) -/

/-- SHA-384 over header bytes 0 to 3,839 and image bytes 4,096 to the image length less 1 (R338). -/
def imageDigest (b : List Byte) : List Byte := sha384 (b.take 3840 ++ (b.take (imageLength b)).drop 4096)

def codeNoImage : Nat := 2
def codeLayout : Nat := 3
def codeKey : Nat := 4
def codeSignature : Nat := 5
def codeRollback : Nat := 6
def codeCspTimeout : Nat := 7

/-- Why authentication fails, 0 when it passes (R333, R338): of a public key, the signature's halves, the image digest and the
security version, against PKHASH and the rollback value. -/
def authFailure (key r s digest : List Byte) (security pkhash rollback : Nat) : Nat :=
  if ofLE (sha384 key) ≠ pkhash then codeKey
  else if key.headD 0 ≠ 4 ∨ ecdsaVerify (ofBE ((key.drop 1).take 48)) (ofBE ((key.drop 49).take 48)) (ofBE r) (ofBE s) (ofBE digest) =
      false then codeSignature
  else if security < rollback then codeRollback
  else 0

/-- Why the slot with these bytes fails, 0 when it passes (R333): the checks in the order of their codes. -/
def imageFailure (b : List Byte) (pkhash rollback : Nat) : Nat :=
  if magicOk b = false then codeNoImage
  else if headerOk b = false ∨ sectionsOk b = false then codeLayout
  else authFailure ((b.drop 3840).take 97) ((b.drop 3940).take 48) ((b.drop 3988).take 48) (imageDigest b) (imageField b 12 4)
    pkhash rollback

/-! ## The sections (R337) -/

/-- A list cut into pieces of `n` elements. -/
def pieces (n : Nat) : Nat → List Byte → List (List Byte)
  | 0, _ => []
  | k + 1, l => l.take n :: pieces n k (l.drop n)

/-- The records of the DEFAULTS section; what is left after the last whole record is none (DESIGN CHOICE, log entry 76). `fuel`
bounds the records by the section's bytes. -/
def defaultRecs : Nat → List Byte → List DefaultRec
  | 0, _ => []
  | fuel + 1, l =>
    let n := imageField l 3 1
    if l.length < 4 + n then []
    else ⟨imageField l 0 2, imageField l 2 1, (l.drop 4).take n⟩ :: defaultRecs fuel (l.drop (4 + n))

/-- What on-chip staging holds of the slot's bytes (R338). -/
def stageImage (slot : Nat) (b : List Byte) : Image :=
  let micro := bytesOf b 3
  { length := imageLength b, security := imageField b 12 4, primacy := imageField b 16 1, training := imageField b 17 1,
    fastRead := imageFastRead b, slot := slot, firmware := sectionOf b 1, digest := imageDigest b,
    pageDigests := pieces 48 ((sectionOf b 2).len / 48) (bytesOf b 2),
    major := imageField micro 49152 2, minor := imageField micro 49154 2, build := imageField micro 49156 4,
    isa := imageField micro 49160 2, storeCrc := imageField micro 49164 4,
    microcode := (pieces 12 4096 micro).map fun w => BitVec.ofNat 96 (ofLE w),
    cfeCode := bytesOf b 4, dictionary := bytesOf b 5,
    defaults := defaultRecs (bytesOf b 6).length (bytesOf b 6) }

end Sys2Proof.Machine
end

