-- ==== Sys2Proof/Machine/CspPort.lean ====
section
/-!
DEFINITION. The CSP port: one frame at a time (R348), the boot engine's, the window reads of the cores, the frames of
translated window writes, and the host's (R333, R349, R350).
-/
namespace Sys2Proof.Machine
namespace Device

def cspStatusIdle : Nat := 0
def cspStatusBusy : Nat := 1
def cspStatusOk : Nat := 2
def cspStatusTimeout : Nat := 3
def cspStatusRefused : Nat := 4

def winDesc (d : Device) (k sub : Nat) : Nat := d.o (0x1241 + k) sub
def setHostStatus (v : Nat) (d : Device) : Device := d.w 0x1240 0x04 v

/-! ## Boot frames (R333, R348) -/

/-- The select that boot reads, of fuse option [3:2]. -/
def bootSelect (d : Device) : Nat := bitf (d.o 0x1210 0x02) 2 2

/-- The offset of a slot in the boot select (R333). -/
def slotOffset (slot : Nat) : Nat := 67108864 * slot

/-- The bytes that one boot frame reads after the header (DESIGN CHOICE, log entry 75: the spec does not say in what frames the
rest of the slot is read). -/
def bootChunk : Nat := 32768

/-- The next mode-switch frame at or after `i` that is sent: one without command bytes is skipped, and so is one that drives
nothing (R337, R345). -/
def nextSwitch (b : List Byte) (i : Nat) : Option Nat :=
  ([0, 1, 2, 3].filter fun j => decide (i ≤ j)).find? fun j => cspCommandBytes (switchDesc b j) != 0 && cspDrives (switchDesc b j)

/-- The boot engine's next frame (R348): the header, the mode-switch frames, and the rest with the fast read profile; none before
REFCLK is present, when the header fails, or when the slot has been read. -/
def bootFrame (d : Device) : Option (CspFrame × Nat) :=
  let b := d.boot.slotData
  let k := d.bootSelect
  if d.o 0x1200 0x01 ≠ 3 ∨ d.refclk ≠ .present then none
  else if b = [] then some (.bootRead 4096, headerRead k (slotOffset d.boot.slot))
  else if headerPasses b = false then none
  else
    match nextSwitch b d.boot.switched with
    | some i => some (.bootSwitch i, setFld (switchDesc b i) 15 1 k)
    | none =>
      let n := min bootChunk (imageLength b - b.length)
      if n = 0 then none
      else some (.bootRead n, setFld (cspPiece (imageFastRead b) (slotOffset d.boot.slot + b.length) n) 15 1 k)

/-! ## Translated writes (R350) -/

/-- The bytes of the piece in hand of a translated write: up to the next program page. -/
def pieceLen (d : Device) (x : WindowWrite) : Nat :=
  let page := d.winDesc x.k 0x08
  min x.data.length (page - x.off % page)

/-- The stage that a piece starts in: a descriptor that drives nothing is passed by (R345). -/
def pieceStart (d : Device) (x : WindowWrite) : WriteStage :=
  if cspDrives (d.winDesc x.k 0x03) then .enable
  else if cspDrives (cspPiece (d.winDesc x.k 0x04) x.off (d.pieceLen x)) then .program
  else .poll d.cycle d.cycle

/-- A piece of the write begins; a write all of whose frames drive nothing runs from here. -/
def beginPiece (d : Device) (x : WindowWrite) : WindowWrite :=
  let y := { x with stage := d.pieceStart x }
  { y with runs := x.runs || match y.stage with
    | .poll _ _ => true
    | _ => false }

/-- The stage after the write-enable frame. -/
def afterEnable (d : Device) (x : WindowWrite) : WriteStage :=
  if cspDrives (cspPiece (d.winDesc x.k 0x04) x.off (d.pieceLen x)) then .program else .poll d.cycle d.cycle

/-- A translated write of the select runs, so that reads of its window wait; one that only waits for the port holds none. -/
def windowBusy (d : Device) (k : Nat) : Bool := d.boot.writes.any fun x => x.k == k && x.runs

/-- The frame that a write sends next, with its descriptor: none before its next poll is due, and none where the status
descriptor drives nothing. -/
def writeFrame (d : Device) (x : WindowWrite) : Option (CspFrame × Nat) := match x.stage with
  | .enable => some (.writeEnable x.k, d.winDesc x.k 0x03)
  | .program => some (.program x.k, cspPiece (d.winDesc x.k 0x04) x.off (d.pieceLen x))
  | .poll _ next =>
    if next ≤ d.cycle ∧ cspDrives (d.winDesc x.k 0x05) = true then some (.statusPoll x.k, d.winDesc x.k 0x05) else none

/-- The oldest write of each select. -/
def oldestWrites : List Nat → List WindowWrite → List WindowWrite
  | _, [] => []
  | seen, x :: l => if seen.contains x.k then oldestWrites seen l else x :: oldestWrites (x.k :: seen) l

/-- The oldest write of select `k` replaced, or taken away. -/
def replaceWrite (k : Nat) (v : Option WindowWrite) : List WindowWrite → List WindowWrite
  | [] => []
  | x :: l => if x.k = k then (match v with
      | some y => y :: l
      | none => l) else x :: replaceWrite k v l

def setWrite (k : Nat) (v : Option WindowWrite) (d : Device) : Device :=
  { d with boot := { d.boot with writes := replaceWrite k v d.boot.writes } }

def oldestWrite (d : Device) (k : Nat) : Option WindowWrite := d.boot.writes.find? fun x => x.k == k

/-- The oldest write of select `k` runs. -/
def runWrite (k : Nat) (d : Device) : Device := match d.oldestWrite k with
  | some x => setWrite k (some { x with runs := true }) d
  | none => d

/-! ## Frames -/

/-- The data bytes that a frame sends: of a write, what the host's buffer holds up to the data length (R349), the bytes of the
piece (R350), or those of the mode-switch frame (R337). -/
def frameData (d : Device) (f : CspFrame) (desc : Nat) : List Byte :=
  if cspWrites desc = false then []
  else match f with
    | .host =>
      let v := d.o 0x1240 0x02
      (leBytes (v % 2 ^ 16) (v / 2 ^ 16)).take (cspLength desc)
    | .program k => ((d.oldestWrite k).map WindowWrite.data).getD [] |>.take (cspLength desc)
    | .bootSwitch i => (switchData d.boot.slotData i).take (cspLength desc)
    | _ => []

/-- A frame begins. -/
def startFrame (f : CspFrame) (desc : Nat) (d : Device) : Device :=
  { d with boot := { d.boot with csp := some f, cspDesc := desc, cspSince := d.cycle, cspOut := d.frameData f desc } }

/-- The first window read that waits no longer: no write runs on its window (R350). -/
def readyRead (d : Device) : Option (Nat × Nat × Nat) := d.boot.reads.find? fun r => !(d.windowBusy r.1)

/-- The first frame due among the translated writes. -/
def readyWrite (d : Device) : Option (Nat × CspFrame × Nat) :=
  (oldestWrites [] d.boot.writes).findSome? fun x => (d.writeFrame x).map fun p => (x.k, p.1, p.2)

/-- The next frame when the port is free (R348): the boot engine's (DESIGN CHOICE, log entry 75), window reads, then translated
writes, then the host's. -/
def nextFrame (d : Device) : Device :=
  match d.boot.csp with
  | some _ => d
  | none =>
    match d.bootFrame with
    | some (f, desc) => startFrame f desc d
    | none =>
      match d.readyRead with
      | some (k, off, len) =>
        startFrame (.windowRead k off len) (cspPiece (d.winDesc k 0x02) off len)
          { d with boot := { d.boot with reads := d.boot.reads.erase (k, off, len) } }
      | none =>
        match d.readyWrite with
        | some (k, f, desc) => startFrame f desc (runWrite k d)
        | none => if d.o 0x1240 0x04 = cspStatusBusy then startFrame .host d.boot.hostDesc d else d

/-- The port is free again. -/
def freePort (d : Device) : Device := { d with boot := { d.boot with csp := none } }

end Device
end Sys2Proof.Machine
end

