-- ==== Sys2Proof/Machine/Floors.lean ====
section
/-!
DEFINITION. The power state a tile is to be in (R369 to R372): the state its tolerance allows, its floor, its target,
and the start of the move to it. Every command that changes a floor condition settles the tiles it concerns.
-/
namespace Sys2Proof.Machine

/-- The deepest state that a latency tolerance in µs allows (R369): 0 ACTIVE to 5 DORMANT. -/
def toleranceState (tol : Nat) : Nat :=
  if tol = 0 then 0 else if tol = 1 then 1 else if tol < 60 then 2 else if tol < 2000 then 3
  else if tol < 120000 then 4 else 5

namespace Device

def powerState (d : Device) (t : Nat) : Nat := d.o (0x1320 + t) 0x02

/-- Throttle level of a tile (R381). -/
def throttled (d : Device) (t : Nat) : Bool := bit (d.o (0x1310 + t) 0x0B) 1

/-- The tile of a head's channel group (R308). -/
def headTile (d : Device) (h : Nat) : Nat := d.act (0x1810 + h) 0x02 / 16

/-- The quads of a head's active channel group (R308). -/
def headQuads (d : Device) (h : Nat) : List Nat :=
  (List.range (d.act (0x1810 + h) 0x03)).map fun i => d.act (0x1810 + h) 0x02 + i

/-- A head is ADMITTING, LOCK-WAIT or RUNNING. -/
def headEnabled (d : Device) (h : Nat) : Bool :=
  let st := d.o (0x1810 + h) 0x21
  decide (1 ≤ st) && decide (st ≤ 3)

/-- An acquisition unit is armed: ADMITTING to WRITING. -/
def acqArmed (d : Device) (c : Nat) : Bool :=
  let st := d.o (clusterIx c) 0x60
  decide (1 ≤ st) && decide (st ≤ 5)

/-- A site counts for condition 0 of R370: RUNNING, or WAITING for a reason other than throttling, or started and waiting for its
host tile's CFE (R373). A site WAITING at a boundary waits for throttling where any of its tiles is throttled; in a throttled tile
none that waits between steps counts (R381). -/
def siteKeepsActive (d : Device) (t s : Nat) : Bool :=
  let tiles := d.o (siteIx s) 0x06
  let f := (d.flowOf s).phase
  bit tiles t &&
  (d.siteState s == siteRunning || d.sites.woken.contains s ||
    (d.siteState s == siteWaiting &&
      !(f == .boundary && (List.range 8).any fun u => bit tiles u && d.throttled u) && !(d.throttled t && f != .running)))

/-- The causes of a tile's pending and running calibrations (R359). -/
def calCauses (d : Device) (t : Nat) : Nat :=
  d.o (0x1410 + t) 0x03 ||| if 2 ≤ d.o (0x1410 + t) 0x01 then (d.calOf t).causes else 0

/-- A real-time grant is held on a subchannel of tile `t` (R255, R370). -/
def tileGranted (d : Device) (t : Nat) : Bool := d.mem.grants.any fun g => g.slots.any fun p => p.1 / 4 == t

/-- The conditions of R370 that hold on tile `t`, bit k for condition k. Self-refresh is the READY memory of a DORMANT
tile (log entry 7). -/
def floorConditions (d : Device) (t : Nat) : Nat :=
  let b (k : Nat) (v : Bool) : Nat := if v then 2 ^ k else 0
  b 0 ((List.range 128).any (d.siteKeepsActive t)) +
  b 1 (d.calCauses t &&& 0x0A != 0) +
  b 2 ((List.range 4).any fun j => d.acqArmed (4 * t + j)) +
  b 3 ((List.range 2).any fun h => d.headEnabled h && d.headTile h == t) +
  b 4 ((List.range 64).any fun j => decide (1 ≤ d.o (chanIx (64 * t + j)) 0x2B) && decide (d.o (chanIx (64 * t + j)) 0x2B ≤ 3)) +
  b 5 (d.tileGranted t) +
  b 6 (d.o (0x1640 + t) 0x01 == 0 ||
    [2 * t, 2 * t + 1].any fun k =>
      d.act (0x1610 + k) 0x01 != 0 && d.o (0x1610 + k) 0x03 != 3 && d.o (0x1610 + k) 0x03 != 5)

/-- The shallowest floor among the conditions (R370); 5 when none holds. -/
def floorOf (conds : Nat) : Nat :=
  if bit conds 0 || bit conds 1 then 0
  else if bit conds 2 || bit conds 3 || bit conds 4 then 2
  else if bit conds 5 || bit conds 6 then 4
  else 5

/-- A tile woken from DORMANT by best-effort accesses stays out of it (R372). -/
def dormantHeld (d : Device) (t : Nat) : Bool := Cells.read 0 t d.power.lastAccess != 0

/-- The target state (R371, R372, R381). -/
def targetState (d : Device) (t floor : Nat) : Nat :=
  let allowed := toleranceState (d.o (0x1320 + t) 0x01)
  let parked := if d.throttled t then max allowed 3 else allowed
  let deep := min parked floor
  if d.dormantHeld t && deep == 5 then 4 else deep

/-- A channel in self-refresh begins the short retrain of R267. -/
def beginShortRetrain (k : Nat) (d : Device) : Device :=
  if d.o (0x1610 + k) 0x03 = 5 then
    { d.w (0x1610 + k) 0x03 2 with
      mem := { d.mem with trainStep := Cells.write 0 k 2 d.mem.trainStep, trainShort := setBit d.mem.trainShort k true } }
  else d

/-- Starts the move of tile `t` to state `v`; leaving DORMANT starts the short retrain of its channels (R267). -/
def beginMove (t v : Nat) (d : Device) : Device :=
  let d1 := { d with power := { d.power with moving := Cells.write 0 t (v + 1) d.power.moving,
                                             moveSince := Cells.write 0 t d.cycle d.power.moveSince } }
  let d2 := d1.w (0x1320 + t) 0x08 1
  if d.powerState t = 5 ∧ v < 5 then each beginShortRetrain [2 * t, 2 * t + 1] d2 else d2

/-- The state that a tile is in or on its way to. -/
def heading (d : Device) (t : Nat) : Nat :=
  let m := Cells.read 0 t d.power.moving
  if m = 0 then d.powerState t else m - 1

/-- The tile controller takes a power-state command: from the core that holds the supervisor role, and while the tile is throttled
from the manager of its half or the Crocus logic in its place (R20, R380; log entry 94); gated off in SHUTDOWN it takes none. -/
def powerCommanded (d : Device) (t : Nat) : Bool := d.o 0x1300 0x12 != 2 && (d.supervisorRuns || d.throttled t)

/-- Re-evaluates a tile's floor and target, and starts the move that follows where it is `commanded` (R370, R371). -/
def settleBy (commanded : Bool) (t : Nat) (d : Device) : Device :=
  let conds := d.floorConditions t
  let floor := floorOf conds
  let target := d.targetState t floor
  let d1 := ((d.w (0x1320 + t) 0x05 conds).w (0x1320 + t) 0x04 floor).w (0x1320 + t) 0x03 target
  if target = d1.heading t ∨ commanded = false then d1 else beginMove t target d1

/-- Settles a tile, whose move begins if a core commands it (R20). -/
def settleTile (t : Nat) (d : Device) : Device := settleBy (d.powerCommanded t) t d

/-- Re-evaluates all eight tiles. -/
def settleTiles (d : Device) : Device := each settleTile [0, 1, 2, 3, 4, 5, 6, 7] d

end Device
end Sys2Proof.Machine
end

