-- ==== Sys2Proof/Machine/RunAhead.lean ====
section
/-!
DEFINITION. The run-ahead of a sequencer (R146, R154, R155, R181): what has been issued and has not committed.
-/
namespace Sys2Proof.Machine

/-- The pre-pin buffer and the splice buffer in vectors (R155, R173). -/
def prePinSize : Nat := 4096
def spliceSize : Nat := 384

/-- Issue to commit (R154). -/
def issueLatency : Nat := 48

/-- A block's vectors that need a payload section. -/
def Item.section? : Item → Option Play
  | .vectors p => if p.uniform.isNone then some p else none
  | .effect _ _ _ _ => none

def Item.plays? : Item → Option Play
  | .vectors p => some p
  | .effect _ _ _ _ => none

/-- The vectors that `n` cycles issue (R146): 8 a cycle, each iteration of a MATCH body of `iter` vectors starting in a new
cycle. -/
def vectorsIn (iter n : Nat) : Nat :=
  if iter = 0 then 8 * n else n / ceilDiv iter 8 * iter + min iter (8 * (n % ceilDiv iter 8))

/-- The whole cycles that issue takes before vector `i` (R146). -/
def cyclesTo (iter i : Nat) : Nat := if iter = 0 then i / 8 else i / iter * ceilDiv iter 8 + i % iter / 8

/-- The vectors a section of the block holds (R158). -/
def Play.sectionCount (p : Play) : Nat := if p.rpt then 1 else if p.iter ≠ 0 then p.iter else p.total

/-- The number in its section of the block's next vector. -/
def Play.sectionIndex (p : Play) : Nat := if p.rpt then 0 else if p.iter ≠ 0 then p.done % p.iter else p.done

/-- The first jump point of the block from its `k`-th vector on (R125, R134). -/
def Play.jumpFrom (p : Play) (k : Nat) : Nat :=
  let next (m : Nat) : Nat := if m = 0 then p.total else ceilDiv k m * m
  min p.total (min (next p.iter) (next p.interval))

/-- The end of what may have been issued of the block: under an armed WAIT-mode event jump, the next jump point (R175). -/
def Play.limit (p : Play) : Nat := if p.wait then p.jumpFrom (p.done + 1) else p.total

/-- The vectors of the block that have been issued by cycle `c` and not committed (R146, R155). -/
def Play.queued (p : Play) (c : Nat) : Nat :=
  let issued := p.base + vectorsIn p.iter (c + 49 - p.ready)
  min (p.limit - p.done) (min prePinSize (max p.early issued - p.done))

/-- Those that are in the pre-pin buffer in cycle `c` (R154, R155). -/
def Play.entered (p : Play) (c : Nat) : Nat :=
  min (p.limit - p.done) (min prePinSize (max p.early (p.base + vectorsIn p.iter (c + 1 - p.ready)) - p.done))

/-- The vectors of a section in decode that are at hand: those from the splice buffer, and those whose share of its bytes has been
fetched (R173, R179). -/
def Decoded.ready (x : Decoded) (fetched : Nat) : Nat :=
  if x.whole || decide (x.start + x.len ≤ fetched) then x.vecs.length
  else max (min x.early x.vecs.length) ((fetched - x.start) * x.vecs.length / x.len)

/-- The vectors of its section that a block has brought into the pre-pin buffer. -/
def Play.decodedCount (p : Play) (entered : Nat) : Nat :=
  if p.rpt then min 1 (p.done + entered) else if p.iter ≠ 0 then min p.iter (p.done + entered) else p.done + entered

/-- The bytes of a section in decode that have been fetched and are not decoded, of which `k` vectors have been (R167). -/
def Decoded.unspent (x : Decoded) (fetched k : Nat) : Nat :=
  if x.whole then 0
  else min x.len (fetched - x.start) - ceilDiv (min k (x.ready fetched) * x.len) (max 1 x.vecs.length)

/-- The bytes of a quad's sections in decode that have been fetched and are not decoded, with `room` vectors left in the pre-pin
buffer: `l` are the sections, in order. -/
def unspent (c fetched : Nat) : Nat → List Decoded → List Item → Nat
  | _, [], _ => 0
  | _, _, [] => 0
  | room, x :: l, i :: rest =>
    match i.plays? with
    | none => unspent c fetched room (x :: l) rest
    | some p =>
      let n := min room (p.entered c)
      if p.uniform.isSome then unspent c fetched (room - n) (x :: l) rest
      else x.unspent fetched (p.decodedCount n) + unspent c fetched (room - n) l rest

/-- Of a quad's run-ahead, the vectors in its pre-pin buffer: `l` are its sections in decode, in order. -/
def prePin (c fetched : Nat) : List Decoded → List Item → Nat
  | _, [] => 0
  | l, i :: rest =>
    match i.plays? with
    | none => prePin c fetched l rest
    | some p =>
      if p.uniform.isSome then p.entered c + prePin c fetched l rest
      else match l with
        | [] => 0
        | x :: l =>
          let n := if p.rpt ∨ p.iter ≠ 0 then p.entered c else min (p.entered c) (x.ready fetched - p.done)
          n + prePin c fetched l rest

namespace Device

/-- Vectors issued and not committed. -/
def queuedVectors (d : Device) (s : Nat) : Nat :=
  (((d.seqOf s).items.filterMap Item.plays?).map fun p => p.total - p.done).sum

/-- Of those, the vectors that an armed WAIT-mode event jump has let issue (R175). -/
def issuedVectors (d : Device) (s : Nat) : Nat :=
  (((d.seqOf s).items.filterMap Item.plays?).map fun p => p.limit - p.done).sum

/-- The vectors in the pre-pin buffer of quad `q` of site `s` ahead of the commit point (R181). -/
def runAhead (d : Device) (s q : Nat) : Nat :=
  min prePinSize (prePin d.cycle (d.streamOf q).fetched (d.streamOf q).decoded (d.seqOf s).items)

/-- The run-ahead of a quad as its object shows it (R181). -/
def runAheadOf (d : Device) (q : Nat) : Nat :=
  match d.siteOf q with
  | some s => d.runAhead s q
  | none => 0

end Device
end Sys2Proof.Machine
end

