-- ==== Sys2Proof/Machine/Memory.lean ====
section
/-!
DEFINITION. The SDRAM controller (chapter 09): population and the memory commit (R247, R250), training (R264 to R267),
grants and admission (R251 to R254), slots (R249, R252, R256), the write queue (R258, R259), errors (R260), ALERT_n and
replay (R261), row disturbance (R263) and device temperature (R268).
-/
namespace Sys2Proof.Machine

/-- The table period in ps at a data rate (R249): 2,048 slots of 16 beats. -/
def tablePeriodPs (rate : Nat) : Nat := 32768000000 / rate

/-- The refresh slots of a subchannel per period (R250): two for each REFsb of each rank, and two for maintenance. -/
def refreshSlots (rate ranks : Nat) : Nat :=
  if ranks = 0 then 0 else 2 * (ranks * 4 * ceilDiv 32768000000 (1950000 * rate)) + 2

/-- The data rates of R246. -/
def dataRates : List Nat := [4800, 5600, 6400, 7200, 8000, 8800]

/-- The real-time limit of a subchannel (R251) and its largest number of grant entries (R253). -/
def realTimeLimit : Nat := 1536
def grantEntryLimit : Nat := 64

/-- A queued write is a best-effort one of requester `r`, or a real-time one of owner `r`. -/
def QueuedWrite.of (w : QueuedWrite) (rt : Bool) (r : Nat) : Bool := w.rt == rt && w.owner == r

/-- What the real-time writes of an owner become when its slots are released: they leave in best-effort slots, as queue bodies do
(DESIGN CHOICE, log entry 53). -/
def QueuedWrite.released (owner : Nat) (w : QueuedWrite) : QueuedWrite :=
  if w.rt && w.owner == owner then { w with rt := false, owner := 3 } else w

namespace Device

/-- A cause of channel `k`: its bit is set and EV(32 + k) is raised (R269). -/
def channelEvent (k cause : Nat) (d : Device) : Device := (d.wbit (0x1610 + k) 0x0C cause true).raise (32 + k)

def chanState (d : Device) (k : Nat) : Nat := d.o (0x1610 + k) 0x03
def populated (d : Device) (k : Nat) : Bool := d.act (0x1610 + k) 0x01 != 0

/-! ## Bulk writes on their way to the memory (R51, R53, R259) -/

/-- The tiles of a mask, rising. -/
def tilesOf (mask : Nat) : List Nat := (List.range 8).filter fun t => bit mask t

/-- The tiles that `n` bytes from a global SDRAM address touch: the next one too where the range passes the end of a full tile
(R248); `n` is less than a tile. -/
def rangeTiles (a n : Nat) : List Nat :=
  if addrTile (a + (n - 1)) = addrTile a then [addrTile a] else [addrTile a, addrTile a + 1]

/-- The tiles whose SDRAM a bulk access touches. -/
def bulkTiles (b : Bulk) : List Nat :=
  if b.space = 0 then rangeTiles b.addr b.data.length else if b.space = 1 then tilesOf b.tiles else []

/-- The datagrams completed from a ring port. -/
def countBulk (l : Link) (d : Device) : Device :=
  let x := d.ring.bulkDone
  { d with ring := { d.ring with bulkDone := match l with
    | .up => (wrapAdd 64 x.1 1, x.2)
    | .down => (x.1, wrapAdd 64 x.2 1) } }

/-- The load's percent (R53, R8). -/
def settleLoad (d : Device) : Device :=
  let total := d.o 0x1100 0x1B
  let pos := d.o 0x1100 0x1D
  d.w 0x1100 0x1C (if total = 0 then 0 else if total ≤ pos then 100 else min 99 (100 * pos / total))

/-- How many times a bulk write counts its bytes (R53). -/
def bulkCopies (b : Bulk) : Nat := if b.space = 1 then (tilesOf b.tiles).length else 1

/-- A bulk write has gone to memory: it counts, and its bytes with it (R53). -/
def bulkStored (b : Bulk) (d : Device) : Device :=
  let d1 := (countBulk b.link d).addWrap 0x1100 0x1D 8 (bulkCopies b * b.data.length)
  each (fun t e => e.raise (tileSource t 7)) (bulkTiles b) (settleLoad d1)

/-- A bulk write is discarded because its memory is no longer READY (R51). -/
def bulkDropped (b : Bulk) (d : Device) : Device := (countBulk b.link d).addSat 0x1100 0x12 4 1

/-- A part of bulk write number `n` is still in a write queue. -/
def partQueued (d : Device) (n : Nat) : Bool := d.mem.sub.any fun p => p.2.writes.any fun w => w.bulk == n

/-- The bulk writes whose last burst has left the write queue complete (R259), or, where the memory has lost them, are
discarded. -/
def settleBulks (lost : Bool) (d : Device) : Device :=
  let done := d.ring.queued.filter fun p => p.2.space != 2 && !(d.partQueued p.1)
  if done.isEmpty then d
  else each (fun p e => if lost then bulkDropped p.2 e else bulkStored p.2 e) done
    { d with ring := { d.ring with queued := d.ring.queued.filter fun p => p.2.space == 2 || d.partQueued p.1 } }

/-! ## Memory commit (R247, R250) -/

def memoryKeys : List Nat :=
  okey 0x1600 0x01 :: (List.range 16).flatMap fun k => [okey (0x1610 + k) 0x01, okey (0x1610 + k) 0x02]

/-- The checks of R247 on the pending copy. -/
def memoryCheck (d : Device) : Nat :=
  verdict [
    (codeBusy, (List.range 16).any fun k => d.chanState k == 2 || d.chanState k == 3 || d.chanState k == 5),
    (codeOutOfRange, !(dataRates.contains (d.pnd 0x1600 0x01)) ||
      (List.range 16).any fun k => decide (2 < d.pnd (0x1610 + k) 0x01) || decide (1 < d.pnd (0x1610 + k) 0x02)),
    (codeInconsistent, (List.range 8).any fun t =>
      d.pnd (0x1610 + 2 * t) 0x01 != 0 && d.pnd (0x1610 + (2 * t + 1)) 0x01 != 0 &&
      (d.pnd (0x1610 + 2 * t) 0x01 != d.pnd (0x1610 + (2 * t + 1)) 0x01 ||
       d.pnd (0x1610 + 2 * t) 0x02 != d.pnd (0x1610 + (2 * t + 1)) 0x02))]

/-- An uncorrectable memory error is reported: it ends the memory condition, also before the SDRAM is first READY (R260, R261,
R290). -/
def memoryError (d : Device) : Device := { d with mem := { d.mem with memError := true } }.setGuarantee 2 false

/-- The host clears the memory condition; bit 2 reads 0 until training first makes the SDRAM READY (R290, R292). -/
def clearMemoryError (d : Device) : Device :=
  let e := { d with mem := { d.mem with memError := false } }
  if d.mem.everReady then e.setGuarantee 2 true else e

/-- A channel after a memory commit: absent, or untrained unless a failed training stands (R265). -/
def placeChannel (k : Nat) (d : Device) : Device :=
  if d.populated k then (if d.chanState k = 4 then d else d.w (0x1610 + k) 0x03 1)
  else d.w (0x1610 + k) 0x03 0

/-- A tile's interleave and capacity (R247). -/
def placeTile (t : Nat) (d : Device) : Device :=
  let a := d.act (0x1610 + 2 * t) 0x01
  let b := d.act (0x1610 + (2 * t + 1)) 0x01
  let ranks := max a b
  let density := if a = 0 then d.act (0x1610 + (2 * t + 1)) 0x02 else d.act (0x1610 + 2 * t) 0x02
  let n := (if a = 0 then 0 else 1) + (if b = 0 then 0 else 1)
  (d.w (0x1640 + t) 0x01 (2 * n)).w (0x1640 + t) 0x02 (n * ranks * (if density = 0 then 8 else 16) * 2 ^ 29 * 2)

/-- A subchannel's fixed slots (R250); its period count starts again (0x1620+j.0B). -/
def placeSub (j : Nat) (d : Device) : Device :=
  ((d.w (0x1620 + j) 0x01 (refreshSlots (d.act 0x1600 0x01) (d.act (0x1610 + j / 2) 0x01))).w (0x1620 + j) 0x02 41).w
    (0x1620 + j) 0x0B 0

/-- The training state of the part (0x1600.11). -/
def settleTraining (d : Device) : Device :=
  let pop := (List.range 16).filter d.populated
  let st :=
    if pop.any fun k => d.chanState k == 2 && !(bit d.mem.trainShort k) then 1
    else if pop.any fun k => d.chanState k == 4 then 3
    else if !pop.isEmpty && pop.all fun k => d.chanState k != 1 then 2
    else 0
  let d1 := d.w 0x1600 0x11 st
  if st = 2 ∧ d.mem.everReady = false then
    { d1 with mem := { d1.mem with everReady := true } }.setGuarantee 2 (!d.mem.memError)
  else d1

/-- What a memory commit does where it is applied: addressing, fixed slots, and no contents (R247, R250). -/
def memoryPlaced (d : Device) : Device :=
  let rate := d.act 0x1600 0x01
  let d1 := each placeChannel (List.range 16) d
  let d2 := each placeTile (List.range 8) d1
  let d3 := each placeSub (List.range 32) d2
  let d4 := (d3.w 0x1600 0x15 (tablePeriodPs rate)).w 0x1600 0x16 (4 * rate)
  let d5 := { d4 with mem := { d4.mem with sdram := [], zeroFilled := 0, sdramPoison := [], sdramWritten := [], sub := [] } }
  settleBulks true d5.settleTraining.settleTiles

/-- The memory commit: the boundary is the cycle after the checks (R247). -/
def memoryCommitOp (d : Device) : Device :=
  commitBoundary .memory memoryKeys (okey 0x1600 0x0E) memoryCheck memoryPlaced
    (commitWrite .memory memoryKeys (okey 0x1600 0x0E) memoryCheck d)

/-! ## Training (R264 to R267) -/

/-- What waits on subchannel `j` is discarded: its writes, and the commands of a replay. -/
def dropWrites (j : Nat) (d : Device) : Device :=
  d.setSub j { d.subOf j with writes := [], retry := [], replay := [], skipped := [] }

/-- The contents of channel `k` are lost, and with them the writes queued for it (R264). -/
def loseContents (k : Nat) (d0 : Device) : Device :=
  let d := each dropWrites [2 * k, 2 * k + 1] d0
  let keep (a : Nat) : Bool := d.addrChan a != k
  { d with mem := { d.mem with
      sdram := d.mem.sdram.filter (fun p => keep p.1),
      zeroFilled := setBits (d.chanSlots k) false d.mem.zeroFilled,
      sdramPoison := d.mem.sdramPoison.filter (fun b => keep (64 * b)),
      sdramWritten := d.mem.sdramWritten.filter (fun b => keep (64 * b)) } }

/-- Steps that a channel runs (R264): step 11 only with zero fill. -/
def trainSteps (d : Device) : Nat := if d.o 0x1600 0x03 = 1 then 11 else 10

def beginTraining (k : Nat) (d : Device) : Device :=
  let d1 := loseContents k (d.w (0x1610 + k) 0x03 2)
  { d1 with mem := { d1.mem with trainStep := Cells.write 0 k 1 d1.mem.trainStep,
                                 trainShort := setBit d1.mem.trainShort k false } }

def trainingRuns (d : Device) : Bool := d.o 0x1600 0x11 == 1
def anyPopulated (d : Device) : Bool := (List.range 16).any d.populated
def grantHeld (d : Device) : Bool := !d.mem.grants.isEmpty

/-- The percent of R266. -/
def trainPercent (pos total : Nat) (running : Bool) : Nat :=
  if total = 0 then 100 else if running then min 99 (100 * pos / total) else 100

def settleProgress (d : Device) : Device :=
  d.w 0x1600 0x12 (trainPercent (d.o 0x1600 0x13) d.mem.trainTotal d.trainingRuns)

/-- Training of the channels `ks` begins; position and total start again (R266). -/
def startTraining (ks : List Nat) (d : Device) : Device :=
  let d1 := each beginTraining ks d
  let d2 := { d1 with mem := { d1.mem with trainTotal := d.trainSteps * ks.length, trainLast := d.trainSteps } }
  settleBulks true (d2.w 0x1600 0x13 0).settleTraining.settleProgress.settleTiles

/-- TRAIN (R265): every populated channel that is not READY. -/
def trainOp (d : Device) : Device :=
  if d.trainingRuns then d.w 0x1600 0x14 2
  else if !d.anyPopulated then d.w 0x1600 0x14 4
  else startTraining ((List.range 16).filter fun k => d.populated k && d.chanState k != 3) (d.w 0x1600 0x14 1)

/-- RETRAIN (R265): every populated channel. -/
def retrainOp (d : Device) : Device :=
  if d.trainingRuns then d.w 0x1600 0x14 2
  else if d.grantHeld then d.w 0x1600 0x14 3
  else if !d.anyPopulated then d.w 0x1600 0x14 4
  else startTraining ((List.range 16).filter d.populated) (d.w 0x1600 0x14 1)

/-- A channel returns to UNTRAINED: a short retrain that ran on it is given up. -/
def untrain (k : Nat) (d : Device) : Device :=
  let e := loseContents k (if d.populated k then d.w (0x1610 + k) 0x03 1 else d)
  { e with mem := { e.mem with trainStep := Cells.write 0 k 0 e.mem.trainStep, trainShort := setBit e.mem.trainShort k false } }

/-- RELEASE (R265): every channel returns to UNTRAINED and its contents are lost. -/
def releaseOp (d : Device) : Device :=
  if d.trainingRuns then d.w 0x1600 0x14 2
  else if d.grantHeld then d.w 0x1600 0x14 3
  else if !d.anyPopulated then d.w 0x1600 0x14 4
  else settleBulks true (each untrain (List.range 16) (d.w 0x1600 0x14 1)).settleTraining.settleTiles

/-- The step after `n` in a short retrain (R267): 2, 6, 7, 9; 0 after the last. -/
def shortNext (n : Nat) : Nat := if n = 2 then 6 else if n = 6 then 7 else if n = 7 then 9 else 0

/-- Channel `k` is done training: READY, with its contents zero after step 11 (R264, R265). A short retrain is no training of
R265 and raises no TRAINING-DONE (R267, R269). -/
def trainDone (k : Nat) (zero : Bool) (d : Device) : Device :=
  let e := if zero then loseContents k d else d
  let short := bit d.mem.trainShort k
  let d1 := { (e.w (0x1610 + k) 0x03 3).w (0x1610 + k) 0x04 0 with
    mem := { e.mem with trainStep := Cells.write 0 k 0 e.mem.trainStep, trainShort := setBit e.mem.trainShort k false,
                        zeroFilled := if zero then setBits (d.chanSlots k) true e.mem.zeroFilled else e.mem.zeroFilled } }
  if short then d1 else channelEvent k 5 d1

/-- Channel `k` failed at step `n` (R265): its remaining steps count as finished (R266). -/
def trainFailed (k n : Nat) (d : Device) : Device :=
  let short := bit d.mem.trainShort k
  let d1 := { (d.w (0x1610 + k) 0x03 4).w (0x1610 + k) 0x04 n with
    mem := { d.mem with trainStep := Cells.write 0 k 0 d.mem.trainStep, trainShort := setBit d.mem.trainShort k false } }
  let d2 := if short then d1 else d1.addWrap 0x1600 0x13 8 (d.mem.trainLast + 1 - n)
  channelEvent k 6 d2

/-- A training step of channel `k` ends (R264 to R267). A channel that is not training stays as it is. -/
def trainingStepOp (k : Nat) (ok : Bool) (d : Device) : Device :=
  let n := Cells.read 0 k d.mem.trainStep
  if n = 0 then d
  else
    let short := bit d.mem.trainShort k
    let next := if short then shortNext n else if n < d.mem.trainLast then n + 1 else 0
    let d1 :=
      if ok = false then settleBulks true (trainFailed k n (each dropWrites [2 * k, 2 * k + 1] d))
      else
        let d2 := if short then d else d.addWrap 0x1600 0x13 8 1
        if next = 0 then trainDone k (!short && n == 11) d2
        else { d2 with mem := { d2.mem with trainStep := Cells.write 0 k next d2.mem.trainStep } }
    d1.settleTraining.settleProgress.settleTiles

/-! ## Grants and admission (R251, R253, R254) -/

/-- The slots that the grants hold on subchannel `j`, accepted ones that wait for their boundary included. -/
def grantedOn (d : Device) (j : Nat) : Nat :=
  (d.mem.grants.map fun g => ((g.slots.filter fun p => p.1 == j).map Prod.snd).sum).sum

def grantEntries (d : Device) (j : Nat) : Nat :=
  (d.mem.grants.map fun g => (g.slots.filter fun p => p.1 == j).length).sum

/-- A demand, as (subchannel, slots) pairs, fits (R253): within the limits of slots and of entries on every subchannel, and every
subchannel with a non-zero demand READY. Admission never fits while no supervisor runs (R340, R342) or an orderly
stop runs (R383). -/
def demandFits (d : Device) (demand : List (Nat × Nat)) : Bool :=
  d.supervisorRuns && d.o 0x1300 0x12 == 0 &&
  demand.all fun p =>
    p.2 == 0 ||
    (decide (d.grantedOn p.1 + ((demand.filter fun x => x.1 == p.1).map Prod.snd).sum ≤ realTimeLimit) &&
     decide (d.grantEntries p.1 + (demand.filter fun x => x.1 == p.1 && x.2 != 0).length ≤ grantEntryLimit) && d.chanState (p.1 / 2) == 3)

/-- A grant of a demand that fits; it is in force from the next table-period boundary (R254). Its tiles do not enter
self-refresh (R255). -/
def addGrant (cls owner : Nat) (demand : List (Nat × Nat)) (d : Device) : Device :=
  let slots := demand.filter fun p => p.2 != 0
  if slots.isEmpty then d
  else
    each settleTile ((List.range 8).filter fun t => slots.any fun p => p.1 / 4 == t)
      { d with mem := { d.mem with grants := d.mem.grants ++ [⟨cls, owner, slots, false, false⟩] } }

/-- The tiles in which an owner holds real-time slots that it has not released, as a mask. -/
def grantTiles (owner : Nat) (d : Device) : Nat :=
  (d.mem.grants.filter fun g => g.owner == owner && !g.released).foldl
    (fun m g => g.slots.foldl (fun m p => if p.2 = 0 then m else setBit m (p.1 / 4) true) m) 0

/-- The grants of an owner are released: they go at the next boundary, until which they count as idle (R254). The tiles are kept
for the requests that are repeated after it (R203). -/
def releaseGrants (owner : Nat) (d : Device) : Device :=
  { d with mem := { d.mem with
      freed := d.mem.freed ||| d.grantTiles owner,
      grants := d.mem.grants.map fun g => if g.owner = owner then { g with released := true } else g,
      sub := d.mem.sub.map fun p => (p.1, { p.2 with writes := p.2.writes.map (QueuedWrite.released owner) }) } }

/-- The slots in force of a class on a subchannel (0x1620+j.03 to .05). -/
def inForce (d : Device) (cls j : Nat) : Nat :=
  ((d.mem.grants.filter fun g => g.inForce && g.cls == cls).map fun g =>
    ((g.slots.filter fun p => p.1 == j).map Prod.snd).sum).sum

def inForceEntries (d : Device) (j : Nat) : Nat :=
  ((d.mem.grants.filter fun g => g.inForce).map fun g => (g.slots.filter fun p => p.1 == j).length).sum

/-- The granted counts of subchannel `j` as in force; the completed period is kept for the ledger (R252, R289), in which the
granted slots that no command showed in use are idle. -/
def boundarySub (j : Nat) (d : Device) : Device :=
  let s := d.inForce 3 j
  let c := d.inForce 4 j
  let r := d.inForce 5 j
  let d1 := ((((d.w (0x1620 + j) 0x03 s).w (0x1620 + j) 0x04 c).w (0x1620 + j) 0x05 r).w (0x1620 + j) 0x06
    (realTimeLimit - (s + c + r))).w (0x1620 + j) 0x07 (d.inForceEntries j)
  let x := d.subOf j
  let rest := x.granted - (x.used + x.idle)
  ((d1.addWrap (0x1620 + j) 0x0B 8 1).addWrap (0x1620 + j) 0x09 8 rest).setSub j
    { x with slotPos := 0, used := 0, idle := 0, granted := s + c + r, lastUsed := x.used, lastIdle := x.idle + rest,
             lastGranted := x.granted }

/-- The period in which the requests that wait for tile `t` are repeated: the one that begins now, if grants were released in
the one before (R203). -/
def notePeriod (freed period : Nat) (l : List (Nat × Nat)) (t : Nat) : List (Nat × Nat) :=
  if bit freed t then Cells.write 0 t period l else l

/-- The table-period boundary of the memory (R254): released grants go, accepted ones come into force. -/
def grantBoundary (d : Device) : Device :=
  let d1 := { d with mem := { d.mem with
    freed := 0,
    freedPeriod := (List.range 8).foldl (notePeriod d.mem.freed (d.mem.period + 1)) d.mem.freedPeriod,
    grants := (d.mem.grants.filter fun g => !g.released).map (fun g => { g with inForce := true }),
    period := d.mem.period + 1 } }
  each boundarySub (List.range 32) d1

/-! ## The slot table (R249 to R252)

The spec fixes how many slots each class has and how evenly they lie, not where: the places below are the model's
(log entry 8). -/

/-- Whether slot `i` of a table with `r` refresh slots is one: pairs spread evenly (R250). -/
def isRefresh (r i : Nat) : Bool :=
  let n := r / 2
  decide (0 < n) && (let p := i * n / 2048
    (i == ceilDiv (p * 2048) n || i == ceilDiv (p * 2048) n + 1))

/-- The maintenance slots are the last pair of refresh slots (R250). -/
def isMaintenance (r i : Nat) : Bool :=
  let n := r / 2
  decide (0 < n) && (i == ceilDiv ((n - 1) * 2048) n || i == ceilDiv ((n - 1) * 2048) n + 1)

/-- The first slot from `p` on that neither is a refresh slot nor stands beside one. -/
def clearSlot (r : Nat) : Nat → Nat → Nat
  | 0, p => p
  | n + 1, p =>
    if isRefresh r p || isRefresh r (p + 1) || (decide (0 < p) && isRefresh r (p - 1)) then clearSlot r n (p + 1) else p

/-- Whether slot `i` is a repair slot: 41 spread evenly, each moved clear of a refresh pair (R250). -/
def isRepair (r i : Nat) : Bool := (List.range 41).any fun k => i == clearSlot r 4 (k * 2048 / 41)

/-- A grant's place in a table: its slots, those already placed, its class and its owner. -/
structure Spread where
  slots : Nat
  placed : Nat
  cls : Nat
  owner : Nat
deriving DecidableEq, Repr

/-- A grant may have slot `i` if that leaves it less than one slot ahead of an even spread over the table (R251). -/
def Spread.open (g : Spread) (i : Nat) : Bool :=
  decide (g.placed < g.slots) && decide (2048 * g.placed < g.slots * (i + 1))

/-- The slot before which the grant's next slot lies, or it falls two behind an even spread (R251). -/
def Spread.deadline (g : Spread) : Nat := min 2048 ((g.placed + 2) * 2048 / max g.slots 1)

/-- The grant that slot `i` is given to: of those that may have it, the one most pressed. -/
def earliest (i : Nat) : List Spread → Option Spread
  | [] => none
  | g :: gs =>
    match earliest i gs with
    | none => if g.open i then some g else none
    | some h => if g.open i && decide (g.deadline ≤ h.deadline) then some g else some h

/-- Advances the first spread equal to `g`. -/
def advance (g : Spread) : List Spread → List Spread
  | [] => []
  | h :: hs => if h = g then { h with placed := h.placed + 1 } :: hs else h :: advance g hs

/-- Classes and owners of `k` slots from position `i` on. -/
def slotClasses (r : Nat) : Nat → Nat → List Spread → List (Nat × Nat)
  | 0, _, _ => []
  | k + 1, i, gs =>
    if isRefresh r i then (1, 0) :: slotClasses r k (i + 1) gs
    else if isRepair r i then (2, 0) :: slotClasses r k (i + 1) gs
    else match earliest i gs with
      | some g => (g.cls, g.owner) :: slotClasses r k (i + 1) (advance g gs)
      | none => (0, 0) :: slotClasses r k (i + 1) gs

/-- The table of subchannel `j` in force: the class of each of its 2,048 slots, and the owner of a granted one. -/
def slotTable (d : Device) (j : Nat) : List (Nat × Nat) :=
  let r := d.o (0x1620 + j) 0x01
  let gs := (d.mem.grants.filter fun g => g.inForce).flatMap fun g =>
    (g.slots.filter fun p => p.1 == j).map fun p => (⟨p.2, 0, g.cls, g.owner⟩ : Spread)
  slotClasses r 2048 0 gs

/-- The slot map record 0x1620+j.0A: four bits a slot. -/
def slotMap (d : Device) (j : Nat) : Nat := (d.slotTable j).foldr (fun p a => p.1 + 16 * a) 0

/-! ## Memory that accepts or holds off an access (R257, R265) -/

/-- A channel in self-refresh, or in the short retrain that leaves it: an access waits (R257). -/
def chanWaits (d : Device) (k : Nat) : Bool := d.chanState k == 5 || bit d.mem.trainShort k

/-- The tile's SDRAM takes an access now or after a wait. -/
def tileTakes (d : Device) (t : Nat) : Bool :=
  d.o (0x1640 + t) 0x01 != 0 &&
  [2 * t, 2 * t + 1].all fun k => !(d.populated k) || d.chanState k == 3 || d.chanWaits k

/-- The tile's SDRAM makes an access wait. -/
def tileWaits (d : Device) (t : Nat) : Bool := [2 * t, 2 * t + 1].any fun k => d.populated k && d.chanWaits k

/-- A best-effort access to the SDRAM of tile `t` wakes it from DORMANT and holds it out (R257, R372). -/
def touchTile (t : Nat) (d : Device) : Device :=
  if d.powerState t = 5 ∨ d.dormantHeld t = true then
    settleTile t { d with power := { d.power with lastAccess := Cells.write 0 t (d.cycle + 1) d.power.lastAccess } }
  else d

/-! ## The write queue (R258, R259) -/

/-- A queued write goes to the device: a whole burst stores fresh check bits, a merged one leaves a poisoned burst poisoned
(R260). -/
def storeBurst (w : QueuedWrite) (d : Device) : Device :=
  let bytes := (List.range 64).filterMap fun i => (w.data.getD i none).map fun b => (64 * w.burst + i, b)
  let d1 := each (fun p e => e.sdramPut p.1 p.2) bytes d
  if w.whole then
    { d1 with mem := { d1.mem with sdramPoison := d1.mem.sdramPoison.filter (fun x => x != w.burst),
                                   sdramWritten := d1.mem.sdramWritten.filter (fun x => x != w.burst) ++ [w.burst] } }
  else d1

/-- The oldest queued write of the kind leaves for the device, behind the older ones to its burst. -/
def writeLeaves (j : Nat) (kind : QueuedWrite → Bool) (d : Device) : Device :=
  let x := d.subOf j
  let i := x.writes.findIdx kind
  match x.writes[i]? with
  | none => d
  | some w =>
    let gone := (x.writes.take (i + 1)).filter fun y => y.burst == w.burst
    let kept := (x.writes.take i).filter (fun y => y.burst != w.burst) ++ x.writes.drop (i + 1)
    let d1 := if w.rt then d else touchTile (j / 4) d
    settleBulks false (each storeBurst gone (d1.setSub j { d1.subOf j with writes := kept }))

/-- A write enters the write queue of its subchannel (R258). Into a full best-effort part of 48 entries it enters as the oldest
leaves, once the memory is READY (R257). A real-time write never leaves outside its class's slots: those beyond the 16 entries of
their part are the writer's, which waits. -/
def queueWrite (w : QueuedWrite) (d : Device) : Device :=
  let a := 64 * w.burst
  let d1 := if w.rt then d else touchTile (addrTile a) d
  let j := d1.addrSub a
  let full := !w.rt && decide (48 ≤ ((d1.subOf j).writes.filter fun y => y.rt == false).length) && d1.chanState (j / 2) == 3
  let d2 := if full then writeLeaves j (fun y => y.rt == false) d1 else d1
  let y := d2.subOf j
  d2.setSub j { y with writes := y.writes ++ [w] }

/-- The youngest queued write to a burst (R259). -/
def queuedBurst (d : Device) (burst : Nat) : Option QueuedWrite :=
  (d.subOf (d.addrSub (64 * burst))).writes.reverse.find? fun w => w.burst == burst

/-- A best-effort read of one byte is answered by the youngest queued write to its burst (R259). -/
def bestEffortByte (d : Device) (a : Nat) : Byte :=
  match d.queuedBurst (a / 64) with
  | some w => (w.data.getD (a % 64) none).getD (d.sdramByte a)
  | none => d.sdramByte a

def bestEffortRead (d : Device) (a : Nat) : Nat → List Byte
  | 0 => []
  | n + 1 => d.bestEffortByte a :: bestEffortRead d (a + 1) n

/-- Whether a best-effort read of a burst is tagged poisoned: unless a whole burst is queued for it. -/
def bestEffortPoison (d : Device) (burst : Nat) : Bool :=
  !((d.subOf (d.addrSub (64 * burst))).writes.any fun w => w.burst == burst && w.whole) && d.burstPoisoned burst

/-- What a merge finds in a byte: none where nothing has written it, whose value the merge keeps (R258). -/
def mergeByte (d : Device) (a : Nat) : Option Byte :=
  match d.queuedBurst (a / 64) with
  | some w => w.data.getD (a % 64) none
  | none => if d.mem.sdram.any fun p => p.1 == a then some (d.sdramByte a) else none

/-- The part of a best-effort write that lies in `burst` enters the write queue as a whole burst, after a merge where it is less
(R258). -/
def storePiece (requester tag a : Nat) (bs : List Byte) (burst : Nat) (d : Device) : Device :=
  let lo := max a (64 * burst)
  let piece := (bs.drop (lo - a)).take (64 * burst + 64 - lo)
  let byte (i : Nat) : Option Byte :=
    if decide (lo ≤ 64 * burst + i) && decide (64 * burst + i < lo + piece.length) then piece[64 * burst + i - lo]?
    else d.mergeByte (64 * burst + i)
  queueWrite ⟨burst, (List.range 64).map byte, false, requester, piece.length == 64, tag⟩ d

/-- A best-effort write of any bytes, burst by burst (R258, R259). -/
def bestEffortStore (requester tag a : Nat) (bs : List Byte) (d : Device) : Device :=
  each (storePiece requester tag a bs) ((List.range ((a % 64 + bs.length + 63) / 64)).map fun i => a / 64 + i) d

/-- A best-effort access to the SDRAM of tile `t` waits (R257): a bulk write that no lease holds, the fetch of a bulk read, or a
queued write. -/
def accessWaits (d : Device) (t : Nat) : Bool :=
  (d.ring.ingress.any fun b => !b.stalled && (bulkTiles b).contains t) ||
  (d.o 0x1100 0x15 == 1 && d.ring.readSpace == 0 && (rangeTiles d.ring.readBase d.ring.readLen).contains t) ||
  (List.range 4).any fun i => (d.subOf (4 * t + i)).writes.any fun w => !w.rt

/-! ## Slots (R252, R256, R263, R268) -/

/-- A best-effort weight as it stands on a subchannel (0x1620+j.0D). -/
def curWeight (d : Device) (j r : Nat) : Nat := fld (d.o (0x1620 + j) 0x0D) r 1
def setWeight (j r v : Nat) (d : Device) : Device := d.w (0x1620 + j) 0x0D (setFld (d.o (0x1620 + j) 0x0D) r 1 v)

/-- The place of a burst in its subchannel (R248). Of the bank-group and row widths, which R248 leaves to JESD79-5, two and 16
(17 at 32 Gbit) are PRESUMED: the capacities of R247 give their sum (log entry 98). -/
structure Place where
  group : Nat
  column : Nat
  bank : Nat
  row : Nat
  rank : Nat
deriving DecidableEq, Repr

/-- The row bits of the devices of a tile: 16 at 16 Gbit, 17 at 32 Gbit. -/
def rowBits (d : Device) (t : Nat) : Nat :=
  let k := if d.act (0x1610 + 2 * t) 0x01 = 0 then 2 * t + 1 else 2 * t
  if d.act (0x1610 + k) 0x02 = 0 then 16 else 17

/-- The decomposition of a global address above the byte and the subchannel (R248). -/
def burstPlace (d : Device) (a : Nat) : Place :=
  let t := addrTile a
  let b := a % 2 ^ 36 / 64 / max (d.o (0x1640 + t) 0x01) 1
  ⟨b % 4, b / 4 % 64, b / 256 % 4, b / 1024 % 2 ^ d.rowBits t, b / 1024 / 2 ^ d.rowBits t⟩

/-- A bank by number, a row of it, and the bank-row group of 64 rows (R263). -/
def Place.bankNo (p : Place) : Nat := (p.rank * 4 + p.bank) * 4 + p.group
def Place.rowNo (p : Place) : Nat := p.bankNo * 2 ^ 17 + p.row
def Place.rowGroup (p : Place) : Nat := p.rowNo / 64

/-- The row of a group with the most activations in the window, the first of equals. -/
def topRow (group : Nat) (rows : List (Nat × Nat)) : Nat :=
  ((rows.filter fun p => p.1 / 64 == group).foldl (fun (m : Nat × Nat) p => if m.2 < p.2 then p else m) (64 * group, 0)).1

/-- A crossing of the activation threshold (R263): refresh management for the bank, directed at the group's most activated row
where the device provides that. Requesters 0 to 7 are best-effort. -/
def crossing (j requester group : Nat) (d : Device) : Device :=
  let x := d.subOf j
  let rfm : Rfm := ⟨group / 2 ^ 11, if Config.directedRfm j then some (topRow group x.rows % 2 ^ 17) else none⟩
  let d1 := (d.setSub j { x with rfm := x.rfm ++ [rfm], crossed := setBit x.crossed requester true }).addWrap
    (0x1610 + j / 2) 0x0E 8 1
  let d2 := d1.addWrap (0x1620 + j) 0x0E 8 1
  if requester < 8 then channelEvent (j / 2) 4 (setWeight j requester (max 1 (d2.curWeight j requester / 2)) d2) else d2

/-- An activation of a row of subchannel `j` for a requester is counted in its bank-row group; at the threshold the requester
crosses, and its count begins anew (R263). An address of another subchannel activates nothing here. -/
def activateRow (j requester a : Nat) (d : Device) : Device :=
  if d.addrSub a ≠ j then d
  else
    let p := d.burstPlace a
    let key := requester * 2 ^ 40 + p.rowGroup
    let x := d.subOf j
    let n := Cells.read 0 key x.acts + 1
    let y := { x with rows := Cells.write 0 p.rowNo (Cells.read 0 p.rowNo x.rows + 1) x.rows }
    if d.o 0x1600 0x04 ≤ n then
      crossing j requester p.rowGroup (d.setSub j { y with acts := Cells.write 0 key 0 x.acts })
    else d.setSub j { y with acts := Cells.write 0 key n x.acts }

/-- A command is issued and goes into the retry buffer, which holds the last 32 (R261). -/
def retryPush (j : Nat) (c : Cmd) (d : Device) : Device :=
  let x := d.subOf j
  let l := x.retry ++ [c]
  d.setSub j { x with retry := l.drop (l.length - 32) }

def issueCmd (j : Nat) (k : CmdKind) (d : Device) : Device := retryPush j ⟨k, 0, false⟩ d

/-- The best-effort requester that the weighted round robin serves next, given the slots left to each (R256): the first that is
ready and has slots left, from the one served last on. -/
def nextReady (ready turn : Nat) (share : Nat → Nat) : Option Nat :=
  ((List.range 8).map fun i => (turn + i) % 8).find? fun r => bit ready r && decide (0 < share r)

/-- The requester served, by weighted round robin (R256): in a round each has as many slots as its current weight, and a round
ends when no ready requester has slots left. The order within a round is the model's (DESIGN CHOICE, log entry 99). -/
def serve (j ready : Nat) (d : Device) : Option Nat × Device :=
  let x := d.subOf j
  match nextReady ready x.turn fun r => Cells.read 0 r x.share with
  | some r => (some r, d.setSub j { x with turn := r, share := Cells.write 0 r (Cells.read 0 r x.share - 1) x.share })
  | none =>
    let fresh := (List.range 8).foldl (fun l r => Cells.write 0 r (d.curWeight j r) l) []
    match nextReady ready (x.turn + 1) (d.curWeight j) with
    | some r => (some r, d.setSub j { x with turn := r, share := Cells.write 0 r (d.curWeight j r - 1) fresh })
    | none => (none, d)

/-- A granted slot counts as used when its owner has a request ready, and as idle when not (R252). -/
def countSlot (j : Nat) (ready : Bool) (d : Device) : Device :=
  let x := d.subOf j
  if ready then (d.setSub j { x with used := x.used + 1 }).addWrap (0x1620 + j) 0x08 8 1
  else (d.setSub j { x with idle := x.idle + 1 }).addWrap (0x1620 + j) 0x09 8 1

/-! ## The reads of a pattern's streams (R167) -/

end Device

/-- A stream buffer's size (R167). -/
def bufferSize : Nat := 32768

/-- The bytes of [a, b) that lie in [lo, hi). -/
def overlap (a b lo hi : Nat) : Nat := min b hi - max a lo

/-- A stream position, moved past the resident image if it lies in it (R163). -/
def Stream.skip (x : Stream) (p : Nat) : Nat := if x.resOff ≤ p ∧ p < x.resOff + x.resLen then x.resOff + x.resLen else p

/-- The bytes fetched for what is not yet in decode, the resident image's range apart. -/
def Stream.fill (x : Stream) : Nat :=
  (x.fetched - x.pos) - overlap x.pos x.fetched x.resOff (x.resOff + x.resLen)

/-- The read at position `p` of the stream ends here: at the next 64-byte piece, the resident image or the stream's end. -/
def Stream.pieceEnd (x : Stream) (p : Nat) : Nat :=
  let e := min x.length ((p / 64 + 1) * 64)
  if x.resLen ≠ 0 ∧ p < x.resOff then min e x.resOff else e

/-- Of the next `n` reads of the stream from position `p` on, the first that is `free`. -/
def Stream.askFrom (x : Stream) (free : Nat → Bool) : Nat → Nat → Option Nat
  | 0, _ => none
  | n + 1, p => if x.length ≤ p then none else if free p then some p else x.askFrom free n (x.skip (x.pieceEnd p))

namespace Device

/-- A site's streams lie in the tile of each quad (R12). -/
def quadAddr (q off : Nat) : Nat := tileBase (q / 16) + off

/-- The fill of quad `q`'s stream buffer: bytes fetched and not yet decoded, the resident image's range apart (R167). -/
def fillOf (d : Device) (s q : Nat) : Nat :=
  let x := d.streamOf q
  x.fill + unspent d.cycle x.fetched prePinSize x.decoded (d.seqOf s).items

/-- The fill as its object shows it. -/
def quadFill (d : Device) (q : Nat) : Nat :=
  match d.siteOf q with
  | some s => d.fillOf s q
  | none => 0

/-- The level from which a stalled or stall-armed site resumes (R177). -/
def resumeLevel (d : Device) (s : Nat) : Nat := d.act (siteIx s) 0x0B

/-- The quad asks for reads (R167): at preload, while a refill goes on, below the low-water level, and below the resume level
while the site is stall-armed or stalled. -/
def wantsRead (d : Device) (s q : Nat) : Bool :=
  let z := d.seqOf s
  let stalled := match z.hold with
    | .stall _ _ => true
    | _ => false
  z.phase == .preload || (d.streamOf q).refilling || decide (d.fillOf s q < d.act (siteIx s) 0x09) ||
  ((z.arm.isSome || stalled) && decide (d.fillOf s q < d.resumeLevel s))

/-- A skipped slot of subchannel `j` holds the read at position `p` of quad `q` (R261). -/
def readSkipped (d : Device) (j q p : Nat) : Bool :=
  ((d.subOf j).replay ++ (d.subOf j).skipped).any fun c => match c.kind with
    | .stream q' p' _ => q' == q && p' == p
    | _ => false

/-- The read that quad `q` of site `s` asks for on subchannel `j`, by its stream position: the next there that no slot has issued,
of its resident image first, then of its stream as far as the buffer has room (R163, R167). -/
def nextAsk (d : Device) (s q j : Nat) : Option Nat :=
  let x := d.streamOf q
  let free (p : Nat) : Bool :=
    d.addrSub (quadAddr q (x.base + p)) == j && !(x.asked.any fun a => a.1 == p) && !(d.readSkipped j q p)
  if (d.seqOf s).phase ≠ .preload ∧ (d.seqOf s).phase ≠ .play then none
  else
    let image := ((List.range (ceilDiv (x.resLen - x.resGot) 64)).map fun i => x.resOff + x.resGot + 64 * i).find? free
    match image with
    | some p => some p
    | none => if d.wantsRead s q then x.askFrom free ((bufferSize - d.fillOf s q) / 64) x.fetched else none

/-- The first of some quads that asks for a read on subchannel `j`. -/
def firstAsk (d : Device) (j : Nat) (want : Nat → Nat → Bool) : List Nat → Option (Nat × Nat)
  | [] => none
  | q :: l =>
    match (match d.siteOf q with
      | some s => if want s q then d.nextAsk s q j else none
      | none => none) with
    | some p => some (q, p)
    | none => d.firstAsk j want l

/-- A read for best-effort requester 5 (R167, R256): a preload's, or one that follows a redirect. -/
def seqAsk (d : Device) (j : Nat) : Option (Nat × Nat) :=
  d.firstAsk j (fun s q => (d.seqOf s).phase == .preload || (d.streamOf q).redirected) ((List.range 16).map fun i => 16 * (j / 4) + i)

/-- A read for a STREAM slot of site `s`: one of its quads in the tile. -/
def siteAsk (d : Device) (j s : Nat) : Option (Nat × Nat) :=
  d.firstAsk j (fun _ _ => true) ((d.siteQuads s).filter fun q => q / 16 == j / 4)

/-! ## What a slot issues (R252, R256, R261) -/

/-- The writes of subchannel `j` of an owner or requester that no skipped slot holds. -/
def writesReady (d : Device) (j : Nat) (rt : Bool) (r : Nat) : Nat :=
  let x := d.subOf j
  (x.writes.filter fun w => w.of rt r).length - ((x.replay ++ x.skipped).filter fun c => c.kind == .queued rt r).length

/-- The best-effort requesters with a request ready: those that the slot names, those with a queued write, and the sequencers. -/
def bestEffortReady (d : Device) (j : Nat) (use : SlotUse) : Nat :=
  (List.range 8).foldl (fun m r =>
    setBit m r (if r = 5 then (d.seqAsk j).isSome else use.ready.toNat.testBit r || decide (0 < d.writesReady j false r))) 0

/-- What the slot issues for best-effort requester `r`. -/
def bestEffortKind (d : Device) (j : Nat) (use : SlotUse) (r : Nat) : CmdKind :=
  match (if r = 5 then d.seqAsk j else none) with
  | some p => .stream p.1 p.2 false
  | none =>
    if 0 < d.writesReady j false r ∧ (use.isWrite = true ∨ use.ready.toNat.testBit r = false) then .queued false r
    else if use.isWrite then .write else .read false

/-- A command is issued, with what it does (R258, R261 to R263). -/
def perform (j : Nat) (k : CmdKind) (d : Device) : Device :=
  match k with
  | .activate r a => activateRow j r a (issueCmd j .command d)
  | .queued rt r => issueCmd j .write (writeLeaves j (fun w => w.of rt r) d)
  | .stream q p rt =>
    let x := d.streamOf q
    issueCmd j (.read false) (d.setStream q { x with asked := x.asked ++ [(p, rt)] })
  | .scrub => issueCmd j (.read false) (d.addWrap (0x1620 + j) 0x0F 8 1)
  | .write => issueCmd j .write d
  | .read b => issueCmd j (.read b) d
  | .command => issueCmd j .command d

/-- A burst with the ACTIVATE of the row that it opens for a requester: commands in order (R261, R263). -/
def withRow (requester : Nat) (use : SlotUse) (k : CmdKind) : List CmdKind :=
  (use.opens.map fun a => CmdKind.activate requester a.toNat).toList ++ [k]

/-- The commands of a best-effort burst (R256), with the round robin moved on. -/
def bestEffortCmds (j : Nat) (use : SlotUse) (d : Device) : List CmdKind × Device :=
  match serve j (d.bestEffortReady j use) d with
  | (none, e) => ([], e)
  | (some r, e) => (withRow r use (e.bestEffortKind j use r), e)

/-- What the owner of a granted slot has ready (R252): a STREAM owner a read of one of its quads, a CAPTURE owner a queued write of
its own, and a RASTER owner what the slot says; nothing once the grant is released (R254). -/
def ownerCmd (d : Device) (j cls owner : Nat) (use : SlotUse) : Option CmdKind :=
  if !(d.mem.grants.any fun g => g.inForce && !g.released && g.cls == cls && g.owner == owner) then none
  else if cls = 4 then (if 0 < d.writesReady j true owner then some (.queued true owner) else none)
  else if cls = 3 then (d.siteAsk j owner).map fun p => .stream p.1 p.2 true
  else if use.ownerReady then some (.read false) else none

/-- The requester number under which the activations of a real-time owner count (R263). -/
def ownerKey (cls owner : Nat) : Nat := 8 + 1024 * (cls - 3) + owner

/-- The commands of a granted slot: its owner's, or, where that has no request ready, a best-effort burst's (R252). -/
def grantedCmds (j cls owner : Nat) (use : SlotUse) (d : Device) : List CmdKind × Device :=
  match d.ownerCmd j cls owner use with
  | some k => (withRow (ownerKey cls owner) use k, d)
  | none => bestEffortCmds j use d

def performAll (j : Nat) (p : List CmdKind × Device) : Device := each (perform j) p.1 p.2

/-- Bursts of a subchannel's populated memory. -/
def subBursts (d : Device) (j : Nat) : Nat :=
  if d.o (0x1640 + j / 4) 0x01 = 0 then 0 else d.tileCapacity (j / 4) / d.o (0x1640 + j / 4) 0x01 / 64

/-- The number of the scrub interval that runs, intervals being counted from reset (R262, log entry 48); an hour is 3.6 * 10^12
cycles. -/
def scrubInterval (d : Device) : Nat := d.cycle / (3600000000000 * d.o 0x1600 0x06)

/-- A new interval starts the scrub of a subchannel again (R262). -/
def settleScrub (j : Nat) (d : Device) : Device :=
  if (d.subOf j).scrubRound = d.scrubInterval then d
  else (d.setSub j { d.subOf j with scrubRound := d.scrubInterval }).w (0x1620 + j) 0x0F 0

/-- The scrub has bursts left in its interval that no skipped slot holds (R262). -/
def scrubDue (d : Device) (j : Nat) : Bool :=
  let held := (((d.subOf j).replay ++ (d.subOf j).skipped).filter fun c => c.kind == .scrub).length
  d.o 0x1600 0x06 != 0 && decide (d.o (0x1620 + j) 0x0F + held < d.subBursts j)

/-- A command of a replay is issued in a repair slot (R261): a skipped one for the first time, with what it does, and one from the
retry buffer again. -/
def replayCmd (j : Nat) (c : Cmd) (d : Device) : Device :=
  if c.skipped then perform j c.kind d else retryPush j ⟨c.kind, c.tries + 1, false⟩ d

/-- The commands still to be replayed (0x1620+j.0C). -/
def settleBacklog (j : Nat) (d : Device) : Device := d.w (0x1620 + j) 0x0C (min 65535 (d.subOf j).replay.length)

/-- A repair slot (R250, R256, R261, R262): the next command of the replay, a scrub read, or a best-effort burst once the
interval's scrub is done or scrub is off. -/
def repairSlot (j : Nat) (use : SlotUse) (d : Device) : Device :=
  let x := d.subOf j
  match x.replay with
  | c :: rest => settleBacklog j (replayCmd j c ((d.setSub j { x with replay := rest }).addWrap (0x1610 + j / 2) 0x0A 8 1))
  | [] =>
    let e := settleScrub j d
    if e.scrubDue j then perform j .scrub e else performAll j (bestEffortCmds j use e)

/-- Some device of channel `k` reported hot at its last MR4 read. -/
def chanHot (d : Device) (k : Nat) : Bool := (d.subOf (2 * k)).hot != 0 || (d.subOf (2 * k + 1)).hot != 0

/-- The MR4 reads of a maintenance slot (R268): bit 0 stands while a device of the channel is hot; each hot report raises the
event. -/
def maintenance (j : Nat) (hot : BitVec 6) (d : Device) : Device :=
  let k := j / 2
  let d1 := d.setSub j { d.subOf j with hot := hot.toNat }
  each (fun _ e => channelEvent k 7 e) ((List.range 6).filter fun i => hot.toNat.testBit i)
    (d1.wbit (0x1610 + k) 0x0D 0 (d1.chanHot k))

/-- Of a refresh pair, the slot that carries the command (R250). -/
def refreshCommand (r i : Nat) : Bool :=
  let n := r / 2
  decide (0 < n) && i == ceilDiv (i * n / 2048 * 2048) n

/-- A refresh slot (R250, R268): a REFsb in the first of its pair; in the maintenance pair a command in each, the MR4 reads in
the first (DESIGN CHOICE, log entry 8). -/
def refreshSlot (j pos : Nat) (use : SlotUse) (d : Device) : Device :=
  let r := d.o (0x1620 + j) 0x01
  if isMaintenance r pos then
    let e := issueCmd j .command d
    if refreshCommand r pos then maintenance j use.hot e else e
  else if refreshCommand r pos then issueCmd j .command d else d

/-- A best-effort slot: a bank that waits for refresh management first, else the requester served (R256, R263). -/
def bestEffortSlot (j : Nat) (use : SlotUse) (d : Device) : Device :=
  let x := d.subOf j
  match x.rfm with
  | m :: rest => issueCmd j .command (d.setSub j { x with rfm := rest, managed := some m })
  | [] => performAll j (bestEffortCmds j use d)

/-- A subchannel does not issue in the table's order: ALERT_n stands, or a replay has commands left (R261). -/
def issueStopped (d : Device) (j : Nat) : Bool := (d.subOf j).alert || !((d.subOf j).replay.isEmpty)

/-- The commands of a slot of class `cls` that is skipped (R261), with the round robin moved on and a bank's refresh management
taken. -/
def skippedCmds (j cls owner pos : Nat) (use : SlotUse) (d : Device) : List CmdKind × Device :=
  let r := d.o (0x1620 + j) 0x01
  let x := d.subOf j
  if cls = 1 then (if isMaintenance r pos || refreshCommand r pos then [.command] else [], d)
  else if cls = 2 then (if d.scrubDue j then ([.scrub], d) else bestEffortCmds j use d)
  else if 3 ≤ cls then grantedCmds j cls owner use d
  else match x.rfm with
    | m :: rest => ([.command], d.setSub j { x with rfm := rest, managed := some m })
    | [] => bestEffortCmds j use d

/-- A slot that is skipped while issue is stopped: it counts as lost, and its commands join the replay (R261); a granted slot is
delayed, not lost to the ledger (R252, R255). -/
def skippedSlot (j cls owner pos : Nat) (use : SlotUse) (d : Device) : Device :=
  let ready := (d.ownerCmd j cls owner use).isSome
  let (ks, e) := skippedCmds j cls owner pos use d
  let x := e.subOf j
  let new := ks.map fun k => (⟨k, 0, true⟩ : Cmd)
  let y := if x.alert then { x with skipped := x.skipped ++ new } else { x with replay := x.replay ++ new }
  let d1 := settleBacklog j ((e.setSub j y).addWrap (0x1610 + j / 2) 0x0F 8 1)
  if 3 ≤ cls then countSlot j ready d1 else d1

/-- The present slot of subchannel `j` (R249), after which the next one is present. A channel that is not READY issues nothing:
a granted slot before the memory leaves self-refresh is delayed (R255). -/
def slotOp (j : Nat) (use : SlotUse) (d : Device) : Device :=
  let pos := (d.subOf j).slotPos
  let (cls, owner) := (d.slotTable j).getD pos (0, 0)
  let d1 :=
    if d.chanState (j / 2) ≠ 3 then (if 3 ≤ cls then countSlot j (d.ownerCmd j cls owner use).isSome d else d)
    else if d.issueStopped j && ((d.subOf j).alert || cls != 2) then skippedSlot j cls owner pos use d
    else if cls = 1 then refreshSlot j pos use d
    else if cls = 2 then repairSlot j use d
    else if cls = 0 then bestEffortSlot j use d
    else performAll j (grantedCmds j cls owner use (countSlot j (d.ownerCmd j cls owner use).isSome d))
  let y := d1.subOf j
  d1.setSub j { y with slotPos := (pos + 1) % 2048 }

/-- A 1,950 ns window ends (R263): a requester with no crossing in it has its weight doubled up to the configured one. -/
def windowEndOp (j : Nat) (d : Device) : Device :=
  let x := d.subOf j
  let d1 := each (fun r e =>
    if bit x.crossed r then e else setWeight j r (min (e.o 0x1600 (0x18 + r)) (2 * e.curWeight j r)) e) (List.range 8) d
  let y := d1.subOf j
  d1.setSub j { y with acts := [], rows := [], crossed := 0 }

/-! ## Errors and replay (R260, R261) -/

/-- The outcome of the SEC-DED check of a read of the burst at global address `a` (R260, R262). -/
def readChecked (j a : Nat) (ecc : Ecc) (scrub : Bool) (d : Device) : Device :=
  let k := j / 2
  match ecc with
  | .clean => d
  | .corrected =>
    channelEvent k 0 (((d.addWrap (0x1610 + k) 0x05 8 1).w (0x1610 + k) 0x07 a).w (0x1610 + k) 0x08 1)
  | .uncorrectable =>
    let d1 := ((d.addWrap (0x1610 + k) 0x06 8 1).w (0x1610 + k) 0x07 a).w (0x1610 + k) 0x08 (if scrub then 3 else 2)
    let d2 := { d1 with mem := { d1.mem with
      sdramPoison := if d1.mem.sdramPoison.contains (a / 64) then d1.mem.sdramPoison else a / 64 :: d1.mem.sdramPoison } }
    memoryError (channelEvent k 1 d2)

/-- ALERT_n asserts on subchannel `j`: issue stops (R261 step 1). -/
def alertOp (j : Nat) (d : Device) : Device :=
  let x := d.subOf j
  if x.alert then d
  else channelEvent (j / 2) 2 ((d.setSub j { x with alert := true }).addSat (0x1610 + j / 2) 0x09 4 1)

/-- Drops the first `n` commands that have been replayed three times (R261). -/
def dropDead : Nat → List Cmd → List Cmd
  | _, [] => []
  | 0, l => l
  | n + 1, c :: l => if 3 ≤ c.tries then dropDead n l else c :: dropDead (n + 1) l

/-- ALERT_n has deasserted and the recovery time has passed (R261 step 2): the writes, the command/address commands and the
reads without data of the retry buffer are to be replayed, oldest first, then what an earlier replay had left, then the
skipped commands. At most `failed` of the commands that have been replayed three times are without success: they are not
replayed again. -/
def replayOp (j failed : Nat) (d : Device) : Device :=
  let x := d.subOf j
  if x.alert = false then d
  else
    let back := x.retry.filter fun c => c.kind != .read true
    let kept := dropDead failed back
    let d1 := settleBacklog j (d.setSub j { x with
      alert := false, retry := [], replay := kept ++ x.replay ++ x.skipped, skipped := [] })
    let f := back.length - kept.length
    if f = 0 then d1
    else memoryError (channelEvent (j / 2) 3 ((d1.addSat (0x1610 + j / 2) 0x0B 4 f).w (0x1610 + j / 2) 0x08 4))

/-- The data of the oldest read under way on subchannel `j` arrives (R261): of those issued or issued again, or else of those that
wait to be replayed, one of which is then discarded. -/
def readArrives (j : Nat) (d : Device) : Device :=
  let x := d.subOf j
  let waiting (c : Cmd) : Bool := c.kind == .read false && !c.skipped
  if x.retry.any waiting then
    let n := x.retry.findIdx waiting
    d.setSub j { x with retry := x.retry.mapIdx fun i c => if i = n then { c with kind := .read true } else c }
  else settleBacklog j (d.setSub j { x with replay := x.replay.eraseIdx (x.replay.findIdx waiting) })

end Device

/-! ## Meanings -/

open Device

/-- MEMORY_COMMIT (R247, R250). -/
def execMemoryCommit (p : Port) (v : Byte) (s : State) : Host.Outcome State Fault Refusal :=
  nextDev s (hostWrite s.dev p 0x1600 0x0F v.toNat false memoryCommitOp)

/-- TRAIN: training request 1 (R265). -/
def execTrain (p : Port) (s : State) : Host.Outcome State Fault Refusal :=
  nextDev s (hostWrite s.dev p 0x1600 0x10 1 false trainOp)

/-- RETRAIN: training request 2 (R265). -/
def execRetrain (p : Port) (s : State) : Host.Outcome State Fault Refusal :=
  nextDev s (hostWrite s.dev p 0x1600 0x10 2 false retrainOp)

/-- RELEASE: training request 3 (R265). -/
def execRelease (p : Port) (s : State) : Host.Outcome State Fault Refusal :=
  nextDev s (hostWrite s.dev p 0x1600 0x10 3 false releaseOp)

/-- TRAINING_STEP_DONE (R264, R266, R267). -/
def execTrainingStepDone (k : MemCh) (ok : Bool) (s : State) : Host.Outcome State Fault Refusal :=
  nextDev s (trainingStepOp k.val ok s.dev)

/-- SLOT (R252). -/
def execSlot (j : SubCh) (use : SlotUse) (s : State) : Host.Outcome State Fault Refusal :=
  nextDev s (slotOp j.val use s.dev)

/-- DISTURBANCE_WINDOW_END (R263). -/
def execDisturbanceWindowEnd (j : SubCh) (s : State) : Host.Outcome State Fault Refusal :=
  nextDev s (windowEndOp j.val s.dev)

/-- SDRAM_READ_DATA (R260, R261). -/
def execSdramReadData (j : SubCh) (addr : BitVec 39) (ecc : Ecc) (scrub : Bool) (s : State) :
    Host.Outcome State Fault Refusal :=
  nextDev s (readArrives j.val (readChecked j.val addr.toNat ecc scrub s.dev))

/-- ALERT_N (R261). -/
def execAlertN (j : SubCh) (s : State) : Host.Outcome State Fault Refusal :=
  nextDev s (alertOp j.val s.dev)

/-- REPLAY (R261). -/
def execReplay (j : SubCh) (failed : Nat) (s : State) : Host.Outcome State Fault Refusal :=
  nextDev s (replayOp j.val failed s.dev)

end Sys2Proof.Machine
end

