-- ==== Sys2Proof/Machine/Queues.lean ====
section
/-!
DEFINITION. The queue fabric (chapter 10): contexts and their commit (R271 to R274), credits (R275 to R281), packets,
flush and disable (R282 to R284), protection (R285) and the level event (R287).
-/
namespace Sys2Proof.Machine

/-- The tile of a queue, and its number in the tile (R271). -/
def queueTile (q : Nat) : Nat := q / 32768
def queueLocal (q : Nat) : Nat := q % 32768

/-- Queues whose contexts firmware holds (R271). -/
def firmwareHeld (q : Nat) : Bool := decide (32704 ≤ queueLocal q)

/-- The number that names no queue (R271). -/
def noQueue : Nat := 0xFFFFFFFF

/-- Bytes of an entry: 64 in SDRAM (placement 0), 16 in cluster SRAM (R272). -/
def entrySize (placement : Nat) : Nat := if placement = 0 then 64 else 16

namespace Device

/-! ## The context -/

def qo (d : Device) (q sub : Nat) : Nat := d.get (qkey q sub)
def qw (d : Device) (q sub v : Nat) : Device := d.put (qkey q sub) v
def qact (d : Device) (q sub : Nat) : Nat := d.get (akey (qkey q sub))
def qpnd (d : Device) (q sub : Nat) : Nat := d.get (pkey (qkey q sub))
def qadd (d : Device) (q sub n : Nat) : Device := d.qw q sub (wrapAdd 64 (d.qo q sub) n)

/-- The queue that a port has selected (0x1700.01). -/
def selected (d : Device) (p : Port) : Nat := d.get (portKey p 0x1700 0x01)

def queueClass (d : Device) (q : Nat) : Nat := d.qact q 0x01
def queuePlacement (d : Device) (q : Nat) : Nat := d.qact q 0x02
def queueSize (d : Device) (q : Nat) : Nat := d.qact q 0x04
def queueEnabled (d : Device) (q : Nat) : Bool := d.qo q 0x14 != 0
def resident (d : Device) (q : Nat) : Nat := d.qo q 0x12
def outstanding (d : Device) (q : Nat) : Nat := d.qo q 0x13

/-- The credits that wait in the pool: outstanding and not reserved by a producer (R276, R277). -/
def pool (d : Device) (q : Nat) : Nat := d.outstanding q - (d.queueOf q).reserved

/-- The free space of a queue (R276). -/
def freeSpace (d : Device) (q : Nat) : Nat := d.queueSize q - d.resident q - d.outstanding q

/-! ## Credits (R276, R277, R281) -/

/-- `n` credits are issued into the pool. -/
def issueCredits (q n : Nat) (d : Device) : Device := (d.qadd q 0x19 n).qw q 0x13 (d.outstanding q + n)

/-- In AUTO mode the fabric issues the whole free space (R276). -/
def autoCredit (q : Nat) (d : Device) : Device :=
  if d.queueEnabled q && d.qact q 0x06 == 1 then issueCredits q (d.freeSpace q) d else d

/-- A producer reserves `n` credits, all or none (R277). -/
def reserve (q n : Nat) (d : Device) : Device :=
  let x := d.queueOf q
  d.setQueue q { x with reserved := x.reserved + n }

def canReserve (d : Device) (q n : Nat) : Bool := d.queueEnabled q && decide (n ≤ d.pool q)

/-- A producer returns `n` credits that it reserved and did not use (R281). -/
def returnCredits (q n : Nat) (d : Device) : Device :=
  let x := d.queueOf q
  let m := min n (min x.reserved (d.outstanding q))
  autoCredit q (((d.setQueue q { x with reserved := x.reserved - m }).qw q 0x13 (d.outstanding q - m)).qadd q 0x1B m)

/-! ## Level (R287) -/

/-- The bit of a queue's group of 64 in its tile's level summary. -/
def settleSummary (q : Nat) (d : Device) : Device :=
  let t := queueTile q
  let g := queueLocal q / 64
  let any := (List.range 64).any fun i => d.qo (t * 32768 + 64 * g + i) 0x1E == 1
  d.wbit (0x1710 + t) 0x01 g any

/-- The level crossing after the resident count has changed. -/
def settleLevel (q : Nat) (d : Device) : Device :=
  let x := d.queueOf q
  let l := d.qact q 0x08
  if l = 0 then d
  else if d.resident q < l then d.setQueue q { x with below := true }
  else if x.below then
    settleSummary q (((d.setQueue q { x with below := false }).qw q 0x1E 1).raise (tileSource (queueTile q) 0))
  else d

/-- The level is taken anew with no event: an enable, a reset or a changed level (R287). -/
def resetLevel (q : Nat) (d : Device) : Device :=
  let x := d.queueOf q
  d.setQueue q { x with below := decide (d.resident q < d.qact q 0x08) || d.qact q 0x08 == 0 }

/-! ## Pointers -/

/-- The resident count W - Rd of the first copies (R273). -/
def settleResident (q : Nat) (d : Device) : Device := d.qw q 0x12 (wrapAdd 32 0 (d.qo q 0x10 - d.qo q 0x11))

/-- W advances by `n` in both copies (R285), with the resident count. -/
def moveW (q n : Nat) (d : Device) : Device :=
  let x := d.queueOf q
  settleResident q ((d.setQueue q { x with w2 := x.w2 + n }).qw q 0x10 (d.qo q 0x10 + n))

/-- Rd advances by `n` in both copies, with the resident count. -/
def moveRd (q n : Nat) (d : Device) : Device :=
  let x := d.queueOf q
  settleResident q ((d.setQueue q { x with rd2 := x.rd2 + n }).qw q 0x11 (d.qo q 0x11 + n))

/-- The position after the last EOP is W, each copy taking its own. -/
def markEop (q : Nat) (d : Device) : Device :=
  let x := d.queueOf q
  d.setQueue q { x with eop := d.qo q 0x10, eop2 := x.w2 }

/-- W, Rd and the last-EOP position are 0 in both copies and no packet is open; poisoned entries are counted anew at the pointers
used again (R273, R285, R286). -/
def zeroPointers (q : Nat) (d : Device) : Device :=
  let x := d.queueOf q
  let d1 := { d with mem := { d.mem with poisonSeen := d.mem.poisonSeen.filter fun p => p.1 != q } }
  settleResident q ((((d1.setQueue q { x with w2 := 0, rd2 := 0, eop := 0, eop2 := 0 }).qw q 0x10 0).qw q 0x11 0).qw q
    0x15 0)

/-- A reset of the queue in one cycle (R285). -/
def resetQueue (q cause : Nat) (d : Device) : Device :=
  let d1 := zeroPointers q (d.qadd q 0x18 (d.resident q))
  let x := d1.queueOf q
  let d2 := d1.setQueue q { x with flushAt := if x.flushAsked then some 0 else none }
  let d3 := (d2.qw q 0x1D (satAdd 32 (d2.qo q 0x1D) 1)).qw q 0x1F cause
  (autoCredit q (resetLevel q (d3.addWrap 0x1700 0x03 8 1))).raise (tileSource (queueTile q) 1)

/-- The two copies of a queue's pointers differ (R285). -/
def copiesDiffer (d : Device) (q : Nat) : Bool :=
  let x := d.queueOf q
  x.w2 != d.qo q 0x10 || x.rd2 != d.qo q 0x11 || x.eop != x.eop2

/-- The comparison of the copies at an update or a ledger check: where they differ the queue is reset (R285). -/
def compareCopies (q : Nat) (d : Device) : Device := if d.copiesDiffer q then resetQueue q 1 d else d

/-- The second copy of W, of Rd or of the last-EOP position takes another value; nothing else changes until the copies are
compared. -/
def upsetCopy (q which v : Nat) (d : Device) : Device :=
  let x := d.queueOf q
  d.setQueue q (if which = 0 then { x with w2 := v } else if which = 1 then { x with rd2 := v } else { x with eop2 := v })

/-! ## Flush and disable (R283, R284) -/

/-- The staged objects of a queue's context (R274). -/
def queueKeys (q : Nat) : List Nat := (List.range 8).map fun i => qkey q (1 + i)

def queueStatusKey (q : Nat) : Nat := qkey q 0x0E

/-- Discards the resident entries before `point`, which Rd moves to (R283). -/
def discardTo (q point : Nat) (d : Device) : Device :=
  let rd := d.qo q 0x11
  if point ≤ rd then d
  else compareCopies q (settleLevel q (moveRd q (point - rd) (d.qadd q 0x18 (point - rd))))

/-- The fail queue of a site (0x2400+s.1D). -/
def failQueue (d : Device) (s : Nat) : Nat := d.act (siteIx s) 0x1D

/-- The 16-byte records in an entry of the fail log (R208). -/
def recordsIn (entry : List Byte) : Nat := ((List.range 4).filter fun i => entry.getD (16 * i) 0 != 0).length

/-- `n` fail-log records of a site, whose credit has been revoked, are dropped and counted with those of its open entry (R209,
R281; DEDUCED, log entry 111). -/
def dropOpenLog (n s : Nat) (d : Device) : Device :=
  let f := d.flowOf s
  let lost := n + f.logEntry.length
  (d.addWrap (siteIx s) 0x3C 8 lost).setFlow s { f with logEntry := [], logDropped := f.logDropped + lost }

/-- A unit in READY holds no credits any more: it waits for them again (R241). -/
def loseReady (q c : Nat) (d : Device) : Device :=
  if d.act (clusterIx c) 0x5A = q ∧ d.o (clusterIx c) 0x60 = 3 then d.w (clusterIx c) 0x60 2 else d

/-- Every outstanding credit is revoked and counts as returned; a producer holds none any more, and what waited for the memory is
not written (R281, R284). -/
def revokeCredits (q : Nat) (d : Device) : Device :=
  let x := d.queueOf q
  let d1 := ((d.qadd q 0x1B (d.outstanding q)).qw q 0x13 0).setQueue q { x with reserved := 0, waiting := [] }
  let n := (x.waiting.map fun e => recordsIn e.1).sum
  let d2 := each (dropOpenLog n) ((List.range 128).filter fun s => d1.failQueue s == q && decide (0 < n + (d1.flowOf s).logEntry.length)) d1
  each (loseReady q) (List.range 32) d2

/-- A pending size-0 commit takes effect (R284). -/
def disableQueue (q : Nat) (d : Device) : Device :=
  let was := d.queueEnabled q
  let d1 := ((unstage (queueKeys q) (activate (queueKeys q) (revokeCredits q d))).dropPend (.queue q)).put
    (queueStatusKey q) codeAccepted
  let d2 := d1.qw q 0x14 0
  let x := d2.queueOf q
  let d3 := (d2.setQueue q { x with
    flushAt := none, flushAsked := false, flushHost := false, disabling := false }).qw q 0x15 0
  if was then d3.w 0x1700 0x02 (d3.o 0x1700 0x02 - 1) else d3

/-- The flush point of queue `q` is reached (R283): the entries before it go, and a waiting disable takes effect. -/
def reachFlushPoint (q : Nat) (d : Device) : Device :=
  let x := d.queueOf q
  match x.flushAt with
  | none => d
  | some point =>
    let d1 := discardTo q point d
    let d2 := d1.setQueue q { d1.queueOf q with flushAt := none, flushAsked := false, flushHost := false }
    if x.disabling then disableQueue q d2
    else autoCredit q (d2.qw q 0x14 1)

/-- A flush is requested (R283): with no packet open the flush point is W and is reached at once, else the position
after the next EOP. -/
def requestFlush (q : Nat) (d : Device) : Device :=
  let x := d.queueOf q
  if x.flushAsked || !d.queueEnabled q then d
  else if d.qo q 0x15 = 0 then
    reachFlushPoint q (d.setQueue q { x with flushAt := some (d.qo q 0x10), flushAsked := true })
  else (d.setQueue q { x with flushAsked := true }).qw q 0x14 (if x.disabling then 3 else 2)

/-- A write of 1 to 0x1701.23 requests a flush, which a later discard of a disable leaves standing (R283; for one asked while a
disable waits DEDUCED, log entry 111). -/
def hostFlush (q : Nat) (d : Device) : Device :=
  if d.queueEnabled q then requestFlush q (d.setQueue q { d.queueOf q with flushHost := true }) else d

/-! ## Entries (R275, R278, R282) -/

/-- The place of the entry at pointer `p`: an SDRAM address or an SRAM key (R273). -/
def entryAt (d : Device) (q p : Nat) : Nat :=
  let off := d.qact q 0x03 + p % max (d.queueSize q) 1 * entrySize (d.queuePlacement q)
  if d.queuePlacement q = 0 then tileBase (queueTile q) + off
  else sramKey (4 * queueTile q + (d.queuePlacement q - 1)) off

/-- The owner holds CAPTURE slots that it has not released (R253, R254). -/
def holdsCapture (d : Device) (owner : Nat) : Bool := d.mem.grants.any fun g => g.cls == 4 && g.owner == owner && !g.released

/-- The body of an entry is written: into the write queue of its subchannel, for the CAPTURE slots of `owner` as long as it holds
some, or into cluster SRAM (R253, R278). -/
def writeBody (q p : Nat) (entry : List Byte) (owner : Option Nat) (d : Device) : Device :=
  let a := d.entryAt q p
  let rt := owner.any d.holdsCapture
  if d.queuePlacement q = 0 then
    queueWrite ⟨a / 64, ((entry ++ List.replicate 64 0).take 64).map some, rt, if rt then owner.getD 3 else 3, true, 0⟩ d
  else sramStore a ((entry ++ List.replicate 16 0).take 16) d

/-- W advances by `n` entries, whose credits are consumed from those reserved or, for a host producer, from the pool;
the last is an EOP or leaves the packet open (R275, R282). -/
def advanceW (q n : Nat) (eop : Bool) (d : Device) : Device :=
  let d1 := moveW q n (((d.qadd q 0x16 n).qadd q 0x1A n).qw q 0x13 (d.outstanding q - n))
  let d2 := d1.qw q 0x15 (if eop then 0 else 1)
  let d3 := if eop then markEop q d2 else d2
  let x := d3.queueOf q
  let d4 :=
    if eop && x.flushAsked && x.flushAt.isNone then d3.setQueue q { x with flushAt := some (d3.qo q 0x10) } else d3
  compareCopies q (settleLevel q d4)

/-- An entry is enqueued for a credit held reserved, once its body can be written (R277, R278). -/
def putEntryOf (q : Nat) (e : List Byte × Bool × Option Nat) (d : Device) : Device :=
  let x := d.queueOf q
  advanceW q 1 e.2.1 ((writeBody q (d.qo q 0x10) e.1 e.2.2 d).setQueue q { x with reserved := x.reserved - 1 })

/-- The body of an entry of queue `q` can be written: in cluster SRAM always, in SDRAM while the tile's memory takes accesses
(R265, R278). -/
def bodyTakes (d : Device) (q : Nat) : Bool := d.queuePlacement q != 0 || d.tileTakes (queueTile q)

/-- A producer enqueues one entry for a credit that it holds reserved (R277, R278); with none it does not write (R275). While the
memory takes no accesses the entry waits with its producer. -/
def enqueueEntry (q : Nat) (entry : List Byte) (eop : Bool) (owner : Option Nat) (d : Device) : Device :=
  let x := d.queueOf q
  if x.reserved = 0 ∨ d.outstanding q = 0 then d
  else if x.waiting.isEmpty && d.bodyTakes q then putEntryOf q (entry, eop, owner) d
  else d.setQueue q { x with waiting := x.waiting ++ [(entry, eop, owner)] }

/-- The entries that waited for the memory of queue `q` are enqueued in order once it takes accesses (R278). -/
def drainQueue (q : Nat) (d : Device) : Device :=
  let x := d.queueOf q
  if x.waiting.isEmpty || !(d.bodyTakes q) then d else each (putEntryOf q) x.waiting (d.setQueue q { x with waiting := [] })

/-- The queues with waiting entries. -/
def drainQueues (d : Device) : Device :=
  each drainQueue ((d.mem.queue.filter fun p => !p.2.waiting.isEmpty).map Prod.fst) d

/-! ## Queue commit (R274, R284) -/

/-- The queue is named by the active configuration of a site or of an acquisition unit (R274). -/
def queueInUse (d : Device) (q : Nat) : Bool :=
  ((List.range 128).any fun s => d.siteState s != siteDisabled && d.act (siteIx s) 0x19 != 0 &&
    (d.act (siteIx s) 0x1C == q || d.act (siteIx s) 0x1D == q)) ||
  (List.range 32).any fun c => d.act (clusterIx c) 0x5A == q

/-- An acquisition unit that produces into the queue is CAPTURING or WRITING (R284). -/
def producing (d : Device) (q : Nat) : Bool :=
  (List.range 32).any fun c => d.act (clusterIx c) 0x5A == q &&
    (d.o (clusterIx c) 0x60 == 4 || d.o (clusterIx c) 0x60 == 5)

/-- A size that R274 admits: 0, or a power of two from 16 to 16,777,216. -/
def sizeOk (n : Nat) : Bool := n == 0 || (List.range 21).any fun k => n == 16 * 2 ^ k

/-- The checks of R274 on the pending copy. -/
def queueCheck (q : Nat) (d : Device) : Nat :=
  let cls := d.qpnd q 0x01
  let pl := d.qpnd q 0x02
  let base := d.qpnd q 0x03
  let size := d.qpnd q 0x04
  let t := queueTile q
  let ch (sub : Nat) : Bool := d.qpnd q sub != d.qact q sub
  let held := d.queueEnabled q && (d.resident q != 0 || d.outstanding q != 0 || d.qo q 0x15 != 0)
  verdict [
    (codeOutOfRange, !(sizeOk size) || decide (4 < cls) || decide (4 < pl) || base % entrySize pl != 0 ||
      (size != 0 && if pl = 0 then decide (d.tileCapacity t < base + size * 64) else decide (1048576 < base + size * 16)) ||
      decide (size < d.qpnd q 0x08) || decide (1 < d.qpnd q 0x05) || decide (1 < d.qpnd q 0x06)),
    (codeUnavailable, pl == 0 && size != 0 && !(d.memReady t)),
    (codeBusy, if size = 0 then d.producing q else held && (ch 0x01 || ch 0x02 || ch 0x03 || ch 0x04)),
    (0x0151, (ch 0x01 || ch 0x02) && d.queueInUse q)]

/-- A committed size other than 0 applied: a queue that was disabled is enabled with empty pointers and counts (R273,
R274). -/
def queueApplied (q : Nat) (was : Bool) (d : Device) : Device :=
  if was then autoCredit q (resetLevel q d)
  else
    let d1 := each (fun i e => e.qw q (0x16 + i) 0) (List.range 6) d
    let d2 := zeroPointers q d1
    let x := d2.queueOf q
    let d3 := (d2.setQueue q { x with
      reserved := 0, flushAt := none, flushAsked := false, flushHost := false, disabling := false }).qw q 0x13 0
    let d4 := (d3.qw q 0x14 1).addSat 0x1700 0x02 4 1
    autoCredit q (resetLevel q (setBaseline 1 (queueTile q) 0 (setBaseline 2 (queueTile q) 0 d4)))

/-- The boundary of a queue commit: the cycle after its checks (R274); a size of 0 waits for the flush point (R284). -/
def queueBoundary (q : Nat) (d : Device) : Device :=
  if d.pends (.queue q) && d.qpnd q 0x04 == 0 then
    if queueCheck q d = 0 then
      if d.queueEnabled q then
        let x := d.queueOf q
        let d1 := (d.setQueue q { x with disabling := true }).qw q 0x14 3
        requestFlush q d1
      else disableQueue q d
    else commitBoundary (.queue q) (queueKeys q) (queueStatusKey q) (queueCheck q) id d
  else
    commitBoundary (.queue q) (queueKeys q) (queueStatusKey q) (queueCheck q) (queueApplied q (d.queueEnabled q)) d

/-- A new commit discards a disable that waits (R59), with the flush that it asked for; a flush asked by 0x1701.23 goes on
(R283). -/
def cancelDisable (q : Nat) (d : Device) : Device :=
  let x := d.queueOf q
  if x.disabling && x.flushHost then (d.setQueue q { x with disabling := false }).qw q 0x14 2
  else if x.disabling then (d.setQueue q { x with disabling := false, flushAsked := false, flushAt := none }).qw q 0x14 1
  else d

def queueCommitOp (q : Nat) (d : Device) : Device :=
  queueBoundary q (commitWrite (.queue q) (queueKeys q) (queueStatusKey q) (queueCheck q) (cancelDisable q d))

/-! ## Host writes to the selected context (R276, R279, R280, R283) -/

/-- The host consumes from a queue whose consumer is HOST and whose class admits it: every class but MQ (R272, R279). -/
def hostConsumes (d : Device) (q : Nat) : Bool := d.qact q 0x05 != 1 && d.queueClass q != 4

/-- A host grant is a violation in AUTO mode or on a queue that the host does not consume from (R272, R276, R279). -/
def grantForbidden (d : Device) (q : Nat) : Bool := firmwareHeld q || d.qact q 0x06 == 1 || !(d.hostConsumes q)

def creditGrantOp (q n : Nat) (d : Device) : Device :=
  let m := min n (d.freeSpace q)
  (issueCredits q m d).qw q 0x24 m

/-- A dequeue above the resident count, or on a queue that the host does not consume from (R272, R279). -/
def dequeueForbidden (d : Device) (q n : Nat) : Bool :=
  firmwareHeld q || !(d.hostConsumes q) || decide (d.resident q < n)

def dequeueOp (q n : Nat) (d : Device) : Device :=
  compareCopies q (autoCredit q (settleLevel q (moveRd q n (d.qadd q 0x17 n))))

/-- An enqueue above the pool, or on a queue that does not allow host production (R280). -/
def enqueueForbidden (d : Device) (q v : Nat) : Bool :=
  firmwareHeld q || !(d.queueClass q == 0 || d.queueClass q == 3) || d.qact q 0x07 != 1 || decide (d.pool q < v % 2 ^ 24)

def enqueueOp (q v : Nat) (d : Device) : Device :=
  let n := v % 2 ^ 24
  if n = 0 then d else advanceW q n (!(bit v 24)) d

/-- The classes that a management core or a CFE message produces into: SQ, HQ and MQ; FQ takes the fail log alone and AQ its
acquisition unit alone (R272). -/
def foreignProducer (d : Device) (q : Nat) : Bool := [0, 3, 4].contains (d.queueClass q)

/-- An upset of a queue context (R285): a copy of a pointer takes another value, which the next comparison finds, or a context word
fails parity, which resets the queue at once. -/
def queueUpsetOp (q : Nat) (u : QueueUpset) (d : Device) : Device := match u with
  | .parity => resetQueue q 2 d
  | .copy which v => upsetCopy q which.val v.toNat d

/-- A host write to an object of the selected queue's context; firmware-held contexts are violations (R271, R61). -/
def contextWrite (d : Device) (p : Port) (sub v : Nat) (forbidden : Bool) (effect : Nat → Device → Device) : Device :=
  hostWrite d p 0x1701 sub v (firmwareHeld (d.selected p) || forbidden) (effect (d.selected p))

end Device

/-! ## Meanings -/

open Device

/-- QUEUE_COMMIT (R274, R284). -/
def execQueueCommit (p : Port) (v : Byte) (s : State) : Host.Outcome State Fault Refusal :=
  nextDev s (contextWrite s.dev p 0x0F v.toNat false queueCommitOp)

/-- CREDIT_GRANT (R276). -/
def execCreditGrant (p : Port) (n : BitVec 32) (s : State) : Host.Outcome State Fault Refusal :=
  nextDev s (contextWrite s.dev p 0x20 n.toNat (s.dev.grantForbidden (s.dev.selected p))
    (fun q => creditGrantOp q n.toNat))

/-- DEQUEUE (R279). -/
def execDequeue (p : Port) (n : BitVec 32) (s : State) : Host.Outcome State Fault Refusal :=
  nextDev s (contextWrite s.dev p 0x21 n.toNat (s.dev.dequeueForbidden (s.dev.selected p) n.toNat)
    (fun q => dequeueOp q n.toNat))

/-- ENQUEUE (R280). -/
def execEnqueue (p : Port) (v : BitVec 32) (s : State) : Host.Outcome State Fault Refusal :=
  nextDev s (contextWrite s.dev p 0x22 v.toNat (s.dev.enqueueForbidden (s.dev.selected p) v.toNat)
    (fun q => enqueueOp q v.toNat))

/-- ENTRY_ENQUEUED (R278): an entry of a producer that the model's commands do not otherwise write, such as a management
core, for a credit of the pool of a queue whose class admits it (R272). -/
def execEntryEnqueued (q : QueueNo) (eop : Bool) (entry : List Byte) (s : State) : Host.Outcome State Fault Refusal :=
  nextDev s (if s.dev.foreignProducer q.val && s.dev.canReserve q.val 1 then
    enqueueEntry q.val entry eop none (reserve q.val 1 s.dev) else s.dev)

/-- FLUSH (R283). -/
def execFlush (p : Port) (v : Byte) (s : State) : Host.Outcome State Fault Refusal :=
  nextDev s (contextWrite s.dev p 0x23 v.toNat false hostFlush)

/-- FLUSH_POINT (R283, R284). -/
def execFlushPoint (q : QueueNo) (s : State) : Host.Outcome State Fault Refusal :=
  nextDev s (reachFlushPoint q.val s.dev)

/-- QUEUE_RESET (R285): the upset that resets a queue, at once or at the comparison that finds it (log entry 111). -/
def execQueueReset (q : QueueNo) (u : QueueUpset) (s : State) : Host.Outcome State Fault Refusal :=
  nextDev s (queueUpsetOp q.val u s.dev)

end Sys2Proof.Machine
end

