-- ==== Sys2Proof/Machine/Ledger.lean ====
section
/-!
DEFINITION. The Marigold ledger (R288 to R292): the terms of the eight invariants, the checks, the fault record, the
scan that locates a queue, and resume.
-/
namespace Sys2Proof.Machine
namespace Device

/-! ## Terms (R289) -/

/-- The sum of one context object over the queues of tile `t`; an unlisted context holds 0 there. -/
def queueSum (d : Device) (t sub : Nat) : Nat :=
  ((d.objs.filter fun p => decide (qkey (t * 32768) 0 ≤ p.1) && decide (p.1 < qkey ((t + 1) * 32768) 0) &&
    p.1 % 256 == sub).map Prod.snd).sum

/-- The sum of the site's channel fail counts (R205). -/
def siteChanFails (d : Device) (s : Nat) : Nat :=
  ((d.siteChans s).map fun n => d.o (clusterIx (n / 16)) (0x10 + n % 16)).sum

/-- A lease lies on a buffer in tile `t`'s SDRAM. -/
def leasesIn (d : Device) (t : Nat) : Nat :=
  ((d.heads.map fun p => (p.2.leases.filter fun l => addrTile l.first == t).length)).sum

/-- The counts of a source (R297): raised, delivered, coalesced, pending. -/
def sourceCounts (d : Device) (src : Nat) : Nat × Nat × Nat × Nat :=
  let r := d.o (0x1550 + src / 16) (1 + src % 16)
  (fld r 0 8, fld r 8 8, fld r 16 8, fld r 24 1)

/-- Left and right side of an invariant in a scope (R289). -/
def ledgerTerms (d : Device) (inv unit : Nat) : Int × Int :=
  let i (n : Nat) : Int := (n : Int)
  if inv = 1 then (i (d.queueSum unit 0x19), i (d.queueSum unit 0x13 + d.queueSum unit 0x1A + d.queueSum unit 0x1B))
  else if inv = 2 then (i (d.queueSum unit 0x16), i (d.queueSum unit 0x17 + d.queueSum unit 0x12 + d.queueSum unit 0x18))
  else if inv = 3 then (i (d.o (siteIx unit) 0x37), i (d.siteChanFails unit))
  else if inv = 4 then (sx 64 (d.o (dpsIx unit) 0x2B), (d.dpsOf unit).increments)
  else if inv = 5 then
    (i (Cells.read 0 unit d.mem.leaseIssued), i (d.leasesIn unit + Cells.read 0 unit d.mem.leaseRetired))
  else if inv = 6 then (i (d.subOf unit).lastGranted, i ((d.subOf unit).lastUsed + (d.subOf unit).lastIdle))
  else if inv = 7 then
    let c := d.sourceCounts unit
    (i c.1, i (c.2.1 + c.2.2.1 + c.2.2.2))
  else (i (d.o 0x1100 0x18), i (d.o 0x1100 0x13 + d.o 0x1100 0x14))

/-- An invariant is not checked in a scope while its count is saturated (R289). -/
def ledgerSkips (d : Device) (inv unit : Nat) : Bool :=
  (inv == 3 && d.o (siteIx unit) 0x43 == 1) || (inv == 4 && d.o (dpsIx unit) 0x2D == 1)

def isSuspended (d : Device) (inv unit : Nat) : Bool := d.ledger.suspended.contains (inv * 1024 + unit)

/-! ## Checks (R288, R291) -/

/-- The 48-byte fault record (R291). -/
def faultRecord (d : Device) (inv unit : Nat) (l r : Int) : Nat :=
  let tile := if inv = 8 then 0xFF else d.scopeTile inv unit
  let named := if inv = 1 ∨ inv = 2 then 0xFFFFFFFF else if inv = 5 ∨ inv = 8 then 0 else unit
  inv + tile * 2 ^ 8 + (if bit (d.o 0x1780 0x01) 3 then 0 else 1) * 2 ^ 16 + named * 2 ^ 32 + (d.cycle % 2 ^ 64) * 2 ^ 64 +
    (d.ringNs % 2 ^ 64) * 2 ^ 128 + ux 64 l * 2 ^ 192 + ux 64 r * 2 ^ 256

/-- The suspended-invariant mask 0x1780.06 (R292); the scope of a site that is disabled has no tile. -/
def settleSuspended (d : Device) : Device :=
  let bits := d.ledger.suspended.foldl (fun m k =>
    let inv := k / 1024
    let t := d.scopeTile inv (k % 1024)
    if 8 < t then m else m ||| 2 ^ (if inv = 8 then 63 else 8 * t + (inv - 1))) 0
  d.w 0x1780 0x06 bits

/-- A broken invariant (R291): EV060, the snapshot trigger, the fault record, the suspension; a tile sum of queues starts
the scan of R289. -/
def ledgerBreak (inv unit : Nat) (l r : Int) (d : Device) : Device :=
  let rec_ := d.faultRecord inv unit l r
  let first := d.o 0x1780 0x03 == 0
  let d1 := registerSnap 3 0xFFFF d.cycle (d.raise 60)
  let d2 := (d1.w 0x1780 0x05 rec_).addSat 0x1780 0x03 4 1
  let d3 := if first then d2.w 0x1780 0x04 rec_ else d2
  let d4 := { d3 with ledger := { d3.ledger with
    suspended := d3.ledger.suspended ++ [inv * 1024 + unit],
    locate := if inv = 1 ∨ inv = 2 then Cells.write 0 unit (setBit (Cells.read 0 unit d3.ledger.locate) (inv - 1) true)
      d3.ledger.locate else d3.ledger.locate } }
  d4.settleSuspended

/-- One invariant checked in one scope against its baseline (R288, R292). -/
def checkScope (inv unit : Nat) (d : Device) : Device :=
  if d.ledgerSkips inv unit || d.isSuspended inv unit then d
  else
    let t := d.ledgerTerms inv unit
    if t.1 - t.2 = d.baselineOf inv unit then d else ledgerBreak inv unit t.1 t.2 d

/-- The scopes that tile `t`'s checker checks (R289). -/
def tileScopes (d : Device) (t : Nat) : List (Nat × Nat) :=
  [(1, t), (2, t)] ++ ((List.range 128).filter fun s => d.hostCluster s / 4 == t && d.siteState s != siteDisabled).map
    (fun s => (3, s)) ++
  (List.range 8).map (fun i => (4, 8 * t + i)) ++ [(5, t)] ++ (List.range 4).map (fun i => (6, 4 * t + i)) ++
  (List.range 8).map (fun i => (7, 8 * t + i)) ++ (List.range 24).map (fun i => (7, 64 + 24 * t + i))

def checkScopes : List (Nat × Nat) → Device → Device
  | [], d => d
  | p :: ps, d => checkScopes ps (checkScope p.1 p.2 d)

/-- The queues of tile `t` that hold anything but their initial context. -/
def listedQueues (d : Device) (t : Nat) : List Nat :=
  let qs := ((d.objs.filter fun p => decide (qkey (t * 32768) 0 ≤ p.1) &&
    decide (p.1 < qkey ((t + 1) * 32768) 0)).map fun p => (p.1 - queueBase) / 256).dedup
  qs ++ (d.mem.queue.map Prod.fst).filter fun q => queueTile q == t && !(qs.contains q)

/-- One check of checker `k`: a tile's, after the comparison of its queues' pointer copies (R285), or for 8 the Crocus
checker, which counts the checks (R288, 0x1780.09). -/
def ledgerCheckOp (k : Nat) (d : Device) : Device :=
  if k < 8 then
    let d1 := each compareCopies (d.listedQueues k) d
    checkScopes (d1.tileScopes k) d1
  else (checkScope 8 0 d).addWrap 0x1780 0x09 8 1

/-! ## Location and resume (R289, R292) -/

/-- The first listed queue of tile `t` whose own counts break invariant `inv`. -/
def brokenQueue (d : Device) (t inv : Nat) : Option Nat :=
  (d.listedQueues t).find? fun q =>
    if inv = 1 then d.qo q 0x19 != d.qo q 0x13 + d.qo q 0x1A + d.qo q 0x1B
    else d.qo q 0x16 != d.qo q 0x17 + d.qo q 0x12 + d.qo q 0x18

/-- The scan of a broken invariant names the queue in the last fault record, and in the first where it is the same fault (R289,
R291). -/
def nameQueue (t inv : Nat) (d : Device) : Device :=
  match d.brokenQueue t inv with
  | none => d
  | some q =>
    let fix (sub : Nat) (e : Device) : Device :=
      let r := e.o 0x1780 sub
      if fld r 0 1 = inv ∧ fld r 1 1 = t ∧ fld r 4 4 = 0xFFFFFFFF then e.w 0x1780 sub (setFld r 4 4 q) else e
    fix 0x05 (fix 0x04 d)

/-- The scans that wait in tile `t`, for invariant 1 (bit 0) and invariant 2 (bit 1), are done. -/
def ledgerLocateOp (t : Nat) (d : Device) : Device :=
  let asked := Cells.read 0 t d.ledger.locate
  if asked = 0 then d
  else
    let d1 := { d with ledger := { d.ledger with locate := Cells.write 0 t 0 d.ledger.locate } }
    each (nameQueue t) ((if bit asked 0 then [1] else []) ++ if bit asked 1 then [2] else []) d1

def resumeScopes : List Nat → Device → Device
  | [], d => d
  | k :: ks, d =>
    let t := d.ledgerTerms (k / 1024) (k % 1024)
    resumeScopes ks (setBaseline (k / 1024) (k % 1024) (t.1 - t.2) d)

/-- Every suspended invariant resumes with its present difference as the baseline (R292). -/
def ledgerResumeOp (d : Device) : Device :=
  let d1 := resumeScopes d.ledger.suspended d
  { d1 with ledger := { d1.ledger with suspended := [] } }.settleSuspended

end Device

/-! ## Meanings -/

open Device

/-- LEDGER_CHECK (R288, R289, R291). -/
def execLedgerCheck (checker : Fin 9) (s : State) : Host.Outcome State Fault Refusal :=
  nextDev s (ledgerCheckOp checker.val s.dev)

/-- LEDGER_LOCATE (R289). -/
def execLedgerLocate (t : Tile) (s : State) : Host.Outcome State Fault Refusal :=
  nextDev s (ledgerLocateOp t.val s.dev)

/-- LEDGER_RESUME (R292). -/
def execLedgerResume (p : Port) (v : Byte) (s : State) : Host.Outcome State Fault Refusal :=
  nextDev s (hostWrite s.dev p 0x1780 0x07 v.toNat false ledgerResumeOp)

/-- CLEAR_MEMORY_CONDITION (R290). Before the SDRAM has first been READY the condition stays 0 (R292). -/
def execClearMemoryCondition (p : Port) (v : Byte) (s : State) : Host.Outcome State Fault Refusal :=
  nextDev s (hostWrite s.dev p 0x1780 0x02 v.toNat false
    clearMemoryError)

end Sys2Proof.Machine
end

