-- ==== Sys2Proof/Machine/Steps.lean ====
section
/-!
DEFINITION. What a flow step in progress shows to the units it uses: its result (R194, R202), and the samples of a
PARAM-MEASURE step (R195).
-/
namespace Sys2Proof.Machine

/-! ## Result codes (R202) -/

def resPass : Nat := 0
def resFail : Nat := 1
def resNotAdmitted : Nat := 2
def resFailLimit : Nat := 3
def resUnderrun : Nat := 4
def resLayout : Nat := 5
def resMicrocode : Nat := 6
def resPoisoned : Nat := 7
def resPeriod : Nat := 8
def resHaltError : Nat := 9
def resModeMismatch : Nat := 10
def resMeasureError : Nat := 11
def resTimeout : Nat := 12
def resDpsRefused : Nat := 13
def resCalRejected : Nat := 14
def resRecordError : Nat := 15
def resStepLimit : Nat := 16
def resAborted : Nat := 17
def resClockLoss : Nat := 18
def resThermal : Nat := 19

/-! ## Flow opcodes (R191) -/

def opRunPattern : Nat := 1
def opParamMeasure : Nat := 2
def opDpsSet : Nat := 3
def opSettle : Nat := 4
def opBranch : Nat := 5
def opBin : Nat := 6
def opDatalog : Nat := 7
def opCalibrate : Nat := 8
def opEnd : Nat := 15

/-- Arguments of a PARAM-MEASURE record (R191): kind, reduction, resource, sample count. -/
def measKind (r : Nat) : Nat := fld r 12 1
def measReduction (r : Nat) : Nat := fld r 13 1
def measResource (r : Nat) : Nat := fld r 14 2
def measCount (r : Nat) : Nat := fld r 16 4

namespace Device

/-- The step that the site's flow runs is one of opcode `op`. -/
def runsStep (d : Device) (s op : Nat) : Bool :=
  let f := d.flowOf s
  f.phase == .running && recOpcode f.record == op

/-- The result of the running step is fixed: the step completes now (R186, R202). -/
def finishStep (s code : Nat) (d : Device) : Device :=
  d.setFlow s { d.flowOf s with phase := .complete, result := code, end_ := d.ringNs }

/-- The sites whose running PARAM-MEASURE step takes kind `kind` from resource `res` of the part, a channel number for a
channel kind and a DPS number for a DPS kind (R195). -/
def measuringSites (d : Device) (kind res : Nat) : List Nat :=
  (List.range 128).filter fun s =>
    d.runsStep s opParamMeasure &&
    (let r := (d.flowOf s).record
     measKind r == kind &&
     (if kind = 2 ∨ kind = 3 then measResource r == res else (d.siteChans s).getD (measResource r) 512 == res))

/-- A valid sample of a measurement (R195): the sum for MEAN, the least for MIN, the greatest for MAX. -/
def takeSample (v : Int) (s : Nat) (d : Device) : Device :=
  let f := d.flowOf s
  let red := measReduction f.record
  if measCount f.record ≤ f.samples then d
  else
    let acc := if red = 0 then f.acc + v else if f.samples = 0 then v else if red = 1 then min f.acc v else max f.acc v
    d.setFlow s { f with samples := f.samples + 1, acc := acc }

/-- A valid sample of a source reaches every step that takes it. -/
def sampleTaken (kind res : Nat) (v : Int) (d : Device) : Device := each (takeSample v) (d.measuringSites kind res) d

/-- A step that takes a source ends with `code`: MODE-MISMATCH at a strobe that changes the PPMU mode or range, or
MEASURE-ERROR at a result that is not OK (R195). -/
def measureFails (kind res code : Nat) (d : Device) : Device := each (fun s e => finishStep s code e) (d.measuringSites kind res) d

/-- A TMU result reaches the steps that take it (R195): the interval in fs, or the frequency in Hz rounded toward zero. -/
def tmuSampled (n rec_ : Nat) (d : Device) : Device :=
  let kind := if fld rec_ 1 1 = 2 then 5 else 4
  let span := fld rec_ 8 8
  if fld rec_ 0 1 ≠ 0 then measureFails kind n resMeasureError d
  else sampleTaken kind n (if kind = 5 then ((fld rec_ 16 8 - 1) * 10 ^ 15 / max span 1 : Nat) else (span : Nat)) d

/-! ## Steps that wait for another unit (R196, R201) -/

/-- A DPS-SET step that waits for its commit: it passes when the commit is accepted, else it fails (R196). -/
def dpsSetDone (k code : Nat) (d : Device) : Device :=
  each (fun s e => finishStep s (if code = codeAccepted then resPass else resDpsRefused) e)
    ((List.range 128).filter fun s => d.runsStep s opDpsSet && fld (d.flowOf s).record 12 1 == k) d

/-- A calibration of tile `t` has ended, for one CALIBRATE-POINT step that may wait for it (R201). -/
def stepCalEnded (t : Nat) (rejected : Bool) (s : Nat) (d : Device) : Device :=
  let f := d.flowOf s
  if d.runsStep s opCalibrate && bit f.calTiles t then
    let f1 := { f with calTiles := setBit f.calTiles t false, calRejected := f.calRejected || rejected }
    let d1 := d.setFlow s f1
    if f1.calTiles = 0 then finishStep s (if f1.calRejected then resCalRejected else resPass) d1 else d1
  else d

def calEnded (t : Nat) (rejected : Bool) (d : Device) : Device := each (stepCalEnded t rejected) (List.range 128) d

end Device
end Sys2Proof.Machine
end

