-- ==== Sys2Proof/Machine/Levels.lean ====
section
/-!
DEFINITION. Channel electronics (chapter 03): the PPMU override (R80), the level outputs (R73, R74), the level block, its
commit and the level strobe (R68 to R77), the PPMU (R78 to R84) and the window monitors (R85 to R90).
-/
namespace Sys2Proof.Machine

/-- The bounds, in thousandths of the step, on the part of a level step reached a time in ps after the load (R74): between two
listed times the least at the earlier and the most at the later; `none` where the bound is 0.1 mV about the final value. -/
def stepBounds (ps : Nat) : Option Int × Option Int :=
  (if ps < 2500000 then some 0 else if ps < 5000000 then some 50 else if ps < 9000000 then some 400
   else if ps < 12000000 then some 880 else if ps < 16000000 then some 970 else if ps < 28000000 then some 990
   else if ps < 40000000 then some 999 else none,
   if ps ≤ 1000000 then some 20 else if ps ≤ 2500000 then some 150 else if ps ≤ 5000000 then some 600
   else if ps ≤ 9000000 then some 950 else if ps ≤ 16000000 then some 1020 else if ps ≤ 28000000 then some 1001 else none)

/-- The voltages in nV between which an output lies a time in ps after a load that takes it from `start` to `final`; it never
overshoots by more than 2 % of the step (R74). -/
def pathBounds (start final : Int) (ps : Nat) : Int × Int :=
  let up := decide (start < final)
  let slack : Int := min 100000 ((final - start).natAbs / 50 : Nat)
  let at_ (b : Option Int) (least : Bool) : Int := match b with
    | some k => start + (final - start) * k / 1000
    | none => if least then (if up then final - 100000 else final + 100000) else (if up then final + slack else final - slack)
  let x := at_ (stepBounds ps).1 true
  let y := at_ (stepBounds ps).2 false
  (min x y, max x y)

/-- A level output in nV, `ps` after its load: at rest where the load does not move it, else on a path that the spec only
bounds (`free`). -/
def pathAt (start final : Int) (ps : Nat) (free : Int) : Int :=
  if start = final then final else max (pathBounds start final ps).1 (min (pathBounds start final ps).2 free)

/-- The voltage in nV of a 10 µV code: output `i` of a quad is field `i % 6` of channel `i / 6` (R69). -/
def outputCode (codes i : Nat) : Int := 10000 * levelCode codes (i / 6) (i % 6)

/-- Level output `i` of quad `q` at `ps`, by the loads newest first (R73, R74): 0 V before the first. -/
def outputAt (q i ps : Nat) : List DacLoad → Int
  | [] => 0
  | l :: rest =>
    if ps < l.ps then outputAt q i ps rest
    else pathAt (l.start.getD i 0) (l.final.getD i 0) (ps - l.ps) (Config.levelPath (24 * q + i) l.ps ps)

/-- The correction in nV at a code from a table of 17 points spread evenly over `lo` to `hi`, linear between them (chapter 14, level
codes). -/
def correctionAt (points : List Int) (lo hi code : Int) : Int :=
  let k := ((code - lo) * 16 / (hi - lo)).toNat
  let a := points.getD k 0
  let b := points.getD (k + 1) a
  a + (b - a) * ((code - lo) * 16 - (k : Int) * (hi - lo)) / (hi - lo)

/-- The most in nV that level output `field` of a channel at rest can be off its setting `v` in nV, on fuse trims and after an accepted
calibration (R394). -/
def levelAccuracy (field : Nat) (trims : Bool) (v : Int) : Int :=
  if trims then 5000000 else (v.natAbs / 5000 : Nat) + (if field = 5 then 500000 else 1000000)

/-- The first edge of the 250 MHz level clock at least 4 ns after the start of cycle `c` (R73); its edges are on the multiples
of four cycles (DESIGN CHOICE, log entry 100). -/
def loadEdge (c : Nat) : Nat := 4000 * ((c + 7) / 4)

/-! ## Window monitor comparators (R87, R88) -/

namespace Monitor

/-- The state that the comparators give: 0 BELOW, 1 INSIDE, 2 ABOVE. -/
def code (m : Monitor) : Nat := if m.low then 0 else if m.high then 2 else 1

/-- One tick of the comparators with sample `s` (R87). -/
def sampled (m : Monitor) (low high lowHyst highHyst s : Int) : Monitor :=
  { m with low := if s < low then true else if low + lowHyst < s then false else m.low,
           high := if high < s then true else if s < high - highHyst then false else m.high }

/-- The starting state of INIT (R88): 0 BELOW, 1 INSIDE, 2 ABOVE. -/
def started (init : Nat) : Monitor := { Monitor.init with low := init == 0, high := init == 2 }

/-- A transition into BELOW or ABOVE from another state (R89). -/
def alarms (m m' : Monitor) : Bool := m'.code != m.code && m'.code != 1

/-- One tick of a running self-check (R90), the state being frozen. SWAP: a tick with the inputs swapped is to give, on both
comparators, the complement of the normal tick before it, so the answer that stands behind the complement is to be the same.
TIE: the inputs are tied below the low threshold, then above the high one; BELOW and ABOVE ask it of both comparators (log entry
101). A comparator marked bad answers the opposite of what its inputs call for. -/
def checked (m : Monitor) (low high lowHyst highHyst : Int) (s : MonSample) : Monitor :=
  let answer (v : Int) : Bool × Bool :=
    let x := m.sampled low high lowHyst highHyst v
    (x.low != s.lowBad, x.high != s.highBad)
  let m' := { m with ticks := m.ticks + 1 }
  if m.check = 1 then
    let a := answer s.value
    if m.ticks % 2 = 0 then { m' with normal := a }
    else { m' with good := m.good && a.1 == m.normal.1 && a.2 == m.normal.2 }
  else
    let below := decide (m.ticks < 2)
    let a := answer (if below then low - 1000 else high + 1000)
    { m' with good := m.good && a.1 == below && a.2 == !below }

end Monitor

namespace Device

/-- A calibration runs in the tile: RUN-1 to APPLYING (R362). -/
def calibrating (d : Device) (t : Nat) : Bool := decide (2 ≤ d.o (0x1410 + t) 0x01)

/-! ## The PPMU override (R78, R80) -/

def ppmuMode (d : Device) (n : Nat) : Nat := d.act (chanIx n) 0x02

/-- The PPMU keeps the driver off and the termination open (R80). -/
def ppmuOverrides (d : Device) (n : Nat) : Bool := d.ppmuMode n == 1 || d.ppmuMode n == 2

/-! ## The level block and its commit (R68, R69, R76, R81, R82, R87) -/

def quadChans (q : Nat) : List Nat := [4 * q, 4 * q + 1, 4 * q + 2, 4 * q + 3]

def levelKeys (q : Nat) : List Nat :=
  subKeys (quadIx q) 0x01 19 ++ (quadChans q).flatMap fun n => subKeys (chanIx n) 0x01 14

/-- A channel field of the pending copy lies outside its range (R62, R81, R82, R84, R87). -/
def chanOutOfRange (d : Device) (n : Nat) : Bool :=
  let v (sub : Nat) : Nat := d.pnd (chanIx n) sub
  let i (sub : Nat) : Int := d.pndi (chanIx n) sub
  decide (1 < v 0x01) || decide (3 < v 0x02) || decide (4 < v 0x03) ||
  decide (i 0x04 < -8388607) || decide (8388607 < i 0x04) ||
  decide (i 0x05 < -150000) || decide (600000 < i 0x05) || decide (i 0x06 < -150000) || decide (600000 < i 0x06) ||
  decide (i 0x07 < 83886) || decide (8388607 < i 0x07) || decide (3 < v 0x08) || decide (1 < v 0x09) ||
  decide (i 0x0C < 0) || decide (i 0x0D < 0) || decide (2 < v 0x0E)

/-- A channel's pending clamps or thresholds disagree (R82, R87). -/
def chanInconsistent (d : Device) (n : Nat) : Bool :=
  let i (sub : Nat) : Int := d.pndi (chanIx n) sub
  decide (i 0x05 ≤ i 0x06) || decide (i 0x0B - i 0x0D ≤ i 0x0A + i 0x0C)

/-- The drive-rate limit of the speed grade in Mbit/s (R68). -/
def gradeRate (d : Device) : Nat := if d.o 0x1000 0x03 = 6 then 6400 else 8000

/-- The checks of a level commit on the pending copy (R62, R68, R69, R76, R362). -/
def levelCheck (q : Nat) (d : Device) : Nat :=
  let sets := (List.range 16).map fun k => d.pnd (quadIx q) (1 + k)
  let ceiling := d.pnd (quadIx q) 0x11
  let tick := d.pnd (quadIx q) 0x13
  verdict [
    (codeUnavailable, d.powerState (q / 16) != 0),
    (codeBusy, d.calibrating (q / 16)),
    (codeZeroRefused, ceiling == 0 || tick == 0),
    (codeOutOfRange, sets.any (fun x => !(levelInRange x)) || decide (15 < d.pnd (quadIx q) 0x12) ||
      (tick != 0 && (decide (tick < 25) || decide (2500000 < tick))) || (quadChans q).any d.chanOutOfRange),
    (codeGradeLimit, decide (d.gradeRate < ceiling)),
    (codeInconsistent, sets.any (fun x => !(levelOrdered x)) || (quadChans q).any d.chanInconsistent),
    (0x0101, sets.any fun x => decide ((largestSwing ceiling : Int) < levelSwing x)),
    (0x0102, (List.range 64).any fun k => aboveCeiling (d.act (quadIx q) (0x20 + k)) ceiling)]

def levelStatusKey (q : Nat) : Nat := okey (quadIx q) 0x17

/-! ## The level strobe (R70 to R73, R77) -/

/-- What a newly applied level commit changes on channel `n`, `old` being the block before it: three samples are
discarded and the count restarts at a change of mode, range or rate (R84); a monitor newly enabled starts from INIT
(R88); a clamp that the new mode does not have is released (R82); a step that measures through the PPMU ends with
MODE-MISMATCH (R195). -/
def applyChannel (old : Device) (n : Nat) (d : Device) : Device :=
  let ch (sub : Nat) : Bool := d.act (chanIx n) sub != old.act (chanIx n) sub
  let d1 := if ch 0x02 || ch 0x03 || ch 0x08 then (d.setPpmuSkip n 3).w (chanIx n) 0x12 0 else d
  let keep := if d.ppmuMode n = 1 then 4 else if d.ppmuMode n = 2 then 3 else 0
  let d2a := if ch 0x02 then d1.w (chanIx n) 0x13 (d1.o (chanIx n) 0x13 &&& keep) else d1
  let d2 := if ch 0x02 || ch 0x03 then measureFails 0 n resModeMismatch (measureFails 1 n resModeMismatch d2a) else d2a
  if d.act (chanIx n) 0x09 = 0 then (d2.setChanMon n Monitor.init).w (chanIx n) 0x14 3
  else if old.act (chanIx n) 0x09 = 0 then
    let m := Monitor.started (d.act (chanIx n) 0x0E)
    (d2.setChanMon n m).w (chanIx n) 0x14 m.code
  else d2

def applyChannels (old : Device) : List Nat → Device → Device
  | [], d => d
  | n :: ns, d => applyChannels old ns (applyChannel old n d)

/-- Where level output `i` of quad `q` comes to rest at a 10 µV code, in nV: at the code as the correction in force has it, within the
figures of R394 (R365). Of a threshold the figure is that of the whole comparator, which `comparatorOffset` allows for. -/
def restOutput (d : Device) (q i : Nat) (code : Int) : Int :=
  let v := 10000 * code
  let field := i % 6
  if field = 3 ∨ field = 4 then v
  else
    let n := 4 * q + i / 6
    let fix := match d.coefsOf (n / 64) (65 + n % 64) with
      | some c => correctionAt ((c.volts.drop (17 * field)).take 17) (levelLow field) (levelHigh field) code
      | none => 0
    let b := levelAccuracy field (d.onTrims n 1) v
    max (v - b) (min (v + b) (v + fix + Config.levelDeviation (24 * q + i) code))

/-- All 24 DACs load the codes of the selected set at the load edge, each output moving from where it then stands (R70, R73). -/
def loadDacs (q : Nat) (d : Device) : Device :=
  let x := d.dacOf q
  let ps := loadEdge d.cycle
  let rest := x.loads.filter fun l => decide (l.ps < ps)
  let codes := d.act (quadIx q) (1 + d.o (quadIx q) 0x18)
  let start := (List.range 24).map fun i => outputAt q i ps rest
  let final := (List.range 24).map fun i => d.restOutput q i (levelCode codes (i / 6) (i % 6))
  d.setDac q { x with loads := ⟨ps, codes, start, final⟩ :: rest }

/-- Level output `i` of quad `q` in nV at `ps`; while REFCLK is lost it may move by 1 mV (R91). -/
def outputNow (d : Device) (q i ps : Nat) : Int :=
  let v := outputAt q i ps (d.dacOf q).loads
  if d.refclk = .lost then max (v - 1000000) (min (v + 1000000) (Config.levelPath (24 * q + i) ps 0)) else v

/-- The level strobe of quad `q`, with the set that an LSET selects if one raised it (R72). Sources that raise it in one cycle
make one strobe, in which the LSET's selection stands whatever their order. With the bias removed, in SLEEP or deeper, no
output moves from 0 V (R91), but the strobe is counted (DESIGN CHOICE, log entry 100). -/
def levelStrobe (q : Nat) (lset : Option Nat) (d : Device) : Device :=
  let d1 := commitBoundary (.level q) (levelKeys q) (levelStatusKey q) (levelCheck q)
    (fun e => (applyChannels d (quadChans q) e).w (quadIx q) 0x18 (e.act (quadIx q) 0x12)) d
  let x := d.dacOf q
  let again := x.strobed == d.cycle + 1
  let chosen := lset.orElse fun _ => if again then x.lset else none
  let d2 := match chosen with
    | some k => d1.w (quadIx q) 0x18 k
    | none => d1
  let d3 := d2.setDac q { d2.dacOf q with strobed := d.cycle + 1, lset := chosen }
  let d4 := if d.powerState (q / 16) ≤ 3 then loadDacs q d3 else d3
  if again then d4 else (d4.addWrap (quadIx q) 0x19 4 1).w (quadIx q) 0x1A d.ringNs

/-- A level commit (R76); with strobe mode 0 it raises the strobe in the first cycle after its checks (R77). -/
def levelCommitOp (q : Nat) (d : Device) : Device :=
  let d1 := commitWrite (.level q) (levelKeys q) (levelStatusKey q) (levelCheck q) d
  let others := d1.pins.strobes.filter fun r => r != q
  { d1 with pins := { d1.pins with
    strobes := if d1.pends (.level q) && d1.o (quadIx q) 0x14 == 0 then others ++ [q] else others } }

/-- The strobes that level commits raise in the cycle that now begins (R77). -/
def commitStrobes (d : Device) : Device :=
  each (fun q e => levelStrobe q none e) d.pins.strobes { d with pins := { d.pins with strobes := [] } }

/-- The broadcast strobe at one quad: ignored while its tile calibrates (R70, R362). -/
def broadcastAt (q : Nat) (d : Device) : Device :=
  if d.o (quadIx q) 0x15 = 0 then d
  else if d.calibrating (q / 16) then d.addSat (0x1410 + q / 16) 0x11 4 1
  else levelStrobe q none d

/-- The chip-wide broadcast level strobe (R70, R296). -/
def broadcastStrobe (d : Device) : Device := each broadcastAt (List.range 128) d

/-- The host's write of 1 raises it in the next cycle (R296). -/
def askStrobe (d : Device) : Device := { d with event := { d.event with strobeNext := true } }

/-! ## PPMU (R82, R84) -/

/-- The alarm source of the channel's cluster (R89). -/
def windowAlarm (n : Nat) (d : Device) : Device := d.raise (clusterSource (n / 16) 2)

/-- The PPMU of a channel works: not off, its tile neither calibrating nor in SLEEP or deeper (R84, R91, R362). -/
def ppmuRuns (d : Device) (n : Nat) : Bool :=
  d.ppmuMode n != 0 && !(d.calibrating (n / 64)) && decide (d.powerState (n / 64) ≤ 3)

/-- The result of a conversion: a voltage within the input span, a current within the hard limit of the range (R84). -/
def ppmuResult (current : Bool) (v : Int) : Int :=
  let top : Int := if current then 9227468 else 8388608
  max (-top) (min top v)

/-- A conversion of the PPMU ADC (R84), which a measuring step takes (R195) and the acquisition unit finds at its next grid
instant (R235). The command is the instant of the conversion: its rate is the sender's to keep (log entry 101). -/
def ppmuSampleOp (n : Nat) (input : Int) (d : Device) : Device :=
  if d.ppmuRuns n = false then d
  else if d.ppmuSkip n ≠ 0 then d.setPpmuSkip n (d.ppmuSkip n - 1)
  else
    let current := d.ppmuMode n == 1
    let value := ppmuResult current input
    let x := d.convOf n
    let y : Converted := { volt := if current then x.volt else some value, cur := if current then some value else x.cur,
                           clamp := x.clamp || d.o (chanIx n) 0x13 != 0 }
    sampleTaken (if current then 1 else 0) n value
      (((d.w (chanIx n) (if current then 0x11 else 0x10) (ux 32 value)).addWrap (chanIx n) 0x12 4 1).setConv n y)

/-- Which clamps a PPMU mode has (R82): the current clamp in FVMI, the voltage clamps in FIMV. -/
def clampOf (mode which : Nat) : Bool := (mode == 1 && which == 2) || (mode == 2 && decide (which ≤ 1))

/-- A PPMU clamp engages (R82): its bit, and an alarm of the window monitor for each entry, but none during the monitor's
self-check (R90). -/
def clampEngageOp (n which : Nat) (d : Device) : Device :=
  if !(clampOf (d.ppmuMode n) which) || !(d.ppmuRuns n) || bit (d.o (chanIx n) 0x13) which then d
  else
    let d1 := (d.wbit (chanIx n) 0x13 which true).setConv n { d.convOf n with clamp := true }
    if (d.chanMon n).check = 0 then windowAlarm n (d1.addSat (chanIx n) 0x15 4 1) else d1

def clampReleaseOp (n which : Nat) (d : Device) : Device := d.wbit (chanIx n) 0x13 which false

/-! ## Window monitors (R86 to R90) -/

/-- The monitor of a channel takes ticks: enabled, the level clock running, and its tile not calibrating (R86, R23,
R362). -/
def monitorRuns (d : Device) (n : Nat) : Bool :=
  d.act (chanIx n) 0x09 == 1 && decide (d.powerState (n / 64) ≤ 3) && !(d.calibrating (n / 64))

/-- A sample tick at a channel monitor (R87, R89); during a self-check the state is frozen (R90). -/
def monitorTick (n : Nat) (x : MonSample) (d : Device) : Device :=
  if !(d.monitorRuns n) then d
  else
    let m := d.chanMon n
    let low := d.acti (chanIx n) 0x0A
    let high := d.acti (chanIx n) 0x0B
    let lowHyst := d.acti (chanIx n) 0x0C
    let highHyst := d.acti (chanIx n) 0x0D
    if m.check ≠ 0 then (if m.ticks < 4 then d.setChanMon n (m.checked low high lowHyst highHyst x) else d)
    else
      let m' := m.sampled low high lowHyst highHyst x.value
      let d1 := (d.setChanMon n m').w (chanIx n) 0x14 m'.code
      if m.alarms m' then windowAlarm n (d1.addSat (chanIx n) 0x15 4 1) else d1

/-- The sample tick of a quad: the ticks of its four channels coincide (R86). The command is the tick: the divisor is the
sender's to keep (log entry 101). -/
def monitorTickOp (q : Nat) (samples : List MonSample) (d : Device) : Device :=
  each (fun i e => monitorTick (4 * q + i) (samples.getD i MonSample.zero) e) (List.range 4) d

/-- A self-check is requested (R90): NOT-RUN on a disabled monitor, ignored while one runs. -/
def selfCheckOp (n kind : Nat) (d : Device) : Device :=
  let m := d.chanMon n
  if d.act (chanIx n) 0x09 ≠ 1 then d.w (chanIx n) 0x17 4
  else if m.check ≠ 0 then d
  else (d.setChanMon n { m with check := kind, ticks := 0, normal := (false, false), good := true }).w (chanIx n) 0x17 1

/-- A channel monitor's self-check ends after tick 4 (R90). -/
def selfCheckDone (n : Nat) (d : Device) : Device :=
  let m := d.chanMon n
  if m.check = 0 ∨ m.ticks < 4 then d
  else
    let d1 := (d.setChanMon n { m with check := 0, ticks := 0, normal := (false, false), good := true }).w
      (chanIx n) 0x17 (if m.good then 2 else 3)
    if m.good then d1 else windowAlarm n d1

end Device

/-! ## Meanings -/

open Device

/-- LEVEL_COMMIT (R76, R77). -/
def execLevelCommit (p : Port) (q : Quad) (v : Byte) (s : State) : Host.Outcome State Fault Refusal :=
  nextDev s (hostWrite s.dev p (quadIx q.val) 0x16 v.toNat false (levelCommitOp q.val))

/-- BROADCAST_STROBE_NOW (R296). -/
def execBroadcastStrobeNow (p : Port) (v : Byte) (s : State) : Host.Outcome State Fault Refusal :=
  nextDev s (hostWrite s.dev p 0x1500 0x06 v.toNat false askStrobe)

/-- MONITOR_TICK (R86, R87). -/
def execMonitorTick (q : Quad) (samples : List MonSample) (s : State) : Host.Outcome State Fault Refusal :=
  nextDev s (monitorTickOp q.val samples s.dev)

/-- MONITOR_SELF_CHECK_REQUEST (R90). -/
def execMonitorSelfCheckRequest (p : Port) (n : Chan) (v : Byte) (s : State) : Host.Outcome State Fault Refusal :=
  nextDev s (hostWrite s.dev p (chanIx n.val) 0x16 v.toNat false (selfCheckOp n.val v.toNat))

/-- PPMU_SAMPLE (R84, R195). -/
def execPpmuSample (n : Chan) (value : Int) (s : State) : Host.Outcome State Fault Refusal :=
  nextDev s (ppmuSampleOp n.val value s.dev)

/-- PPMU_CLAMP_ENGAGE (R82). -/
def execPpmuClampEngage (n : Chan) (which : Fin 3) (s : State) : Host.Outcome State Fault Refusal :=
  nextDev s (clampEngageOp n.val which.val s.dev)

/-- PPMU_CLAMP_RELEASE (R82). -/
def execPpmuClampRelease (n : Chan) (which : Fin 3) (s : State) : Host.Outcome State Fault Refusal :=
  nextDev s (clampReleaseOp n.val which.val s.dev)

end Sys2Proof.Machine
end

