-- ==== Sys2Proof/Machine/Timing.lean ====
section
/-!
DEFINITION. Timing sets and their commit (R92 to R106).
-/
namespace Sys2Proof.Machine
namespace Device

/-- The staged objects of a quad's timing block (R102): fixture delays and 64 timing sets. -/
def timingKeys (q : Nat) : List Nat := okey (quadIx q) 0x1E :: subKeys (quadIx q) 0x20 64

def timingStatusKey (q : Nat) : Nat := okey (quadIx q) 0x1C

/-- The quad belongs to a site in state RUNNING (R104). -/
def quadSiteRunning (d : Device) (q : Nat) : Bool :=
  match d.siteOf q with
  | some s => d.siteState s == siteRunning
  | none => false

/-- The checks of a timing commit on the pending copy (R3, R92, R95 to R98, R102, R104, R106, R362). -/
def timingCheck (q : Nat) (d : Device) : Nat :=
  let sets := (List.range 64).map fun k => d.pnd (quadIx q) (0x20 + k)
  let grade := d.o 0x1000 0x03
  verdict [
    (codeUnavailable, d.powerState (q / 16) != 0),
    (codeBusy, d.calibrating (q / 16)),
    (0x0114, d.quadSiteRunning q &&
      (List.range 64).any fun k => timePeriod (d.pnd (quadIx q) (0x20 + k)) != timePeriod (d.act (quadIx q) (0x20 + k))),
    (codeZeroRefused, sets.any fun x => timePeriod x == 0),
    (codeOutOfRange, sets.any (fun x => decide (timePeriod x < shortestPeriod grade) || decide (65536000 < timePeriod x) ||
      !(timeInRange x)) ||
      !(delaysInRange (d.pnd (quadIx q) 0x1E))),
    (codeGradeLimit, sets.any fun x => decide (timePeriod x < shortestPeriod grade)),
    (0x0111, sets.any fun x => !(timeFormatPeriod x)),
    (0x0112, sets.any fun x => !((List.range 4).all (edgesOrdered x))),
    (0x0113, sets.any fun x => aboveCeiling x (d.act (quadIx q) 0x11))]

/-- The write of a timing commit: it waits for its boundary (R102). -/
def timingCommitOp (q : Nat) (d : Device) : Device :=
  commitWrite (.timing q) (timingKeys q) (timingStatusKey q) (timingCheck q) d

/-- The boundary of a pending timing commit (R102). -/
def timingBoundary (q : Nat) (d : Device) : Device :=
  commitBoundary (.timing q) (timingKeys q) (timingStatusKey q) (timingCheck q) id d

/-- The quad's site plays a pattern: its boundaries are vector boundaries (R102). So they are while the pattern preloads, before the
first of them (DESIGN CHOICE, log entry 107). -/
def quadPlays (d : Device) (q : Nat) : Bool :=
  match d.siteOf q with
  | some s => (d.seqOf s).phase != .off
  | none => false

/-- The boundary outside a pattern: a cycle (R102). Inside one, the vector boundary applies it (R103). -/
def timingApplyOp (q : Nat) (d : Device) : Device := if d.quadPlays q then d else timingBoundary q d

/-- The period in ps of the selected timing set of a quad. -/
def quadPeriod (d : Device) (q : Nat) : Nat := timePeriod (d.act (quadIx q) (0x20 + d.o (quadIx q) 0x1D))

/-- The compare fixture delay of a channel in 0.25 ps (R106). -/
def fixtureCompare (d : Device) (n : Nat) : Nat := compareDelay (d.act (quadIx (n / 4)) 0x1E) (n % 4)

end Device

/-! ## Meanings -/

open Device

/-- TIMING_COMMIT (R102). -/
def execTimingCommit (p : Port) (q : Quad) (v : Byte) (s : State) : Host.Outcome State Fault Refusal :=
  nextDev s (hostWrite s.dev p (quadIx q.val) 0x1B v.toNat false (timingCommitOp q.val))

/-- TIMING_COMMIT_APPLY (R102). -/
def execTimingCommitApply (q : Quad) (s : State) : Host.Outcome State Fault Refusal :=
  nextDev s (timingApplyOp q.val s.dev)

end Sys2Proof.Machine
end

