-- ==== Sys2Proof/Machine/Pins.lean ====
section
/-!
DEFINITION. The channel at its pin (R63, R64, R80, R93, R94, R98, R100, R105, R106, R155): what drives it and when, as
vectors place their edges, and what its comparators decide at the strobes (R65, R96, R97).
-/
namespace Sys2Proof.Machine

/-! ## Edges -/

/-- An edge put into the edges still to come, behind those of its instant. -/
def insertEdge (e : DriveEdge) : List DriveEdge → List DriveEdge
  | [] => [e]
  | x :: l => if e.at_ < x.at_ then e :: x :: l else x :: insertEdge e l

namespace Pin

/-- The pin at instant `now`: the edges due have taken place. -/
def settled (now : Nat) (p : Pin) : Pin :=
  let due := p.edges.takeWhile fun e => decide (e.at_ ≤ now)
  { p with drive := (due.getLast?.map fun e => e.drive).getD p.drive, edges := p.edges.drop due.length }

/-- What drives the pin after all its edges. -/
def last (p : Pin) : Drive := (p.edges.getLast?.map fun e => e.drive).getD p.drive

def add (deskew : Int) (at_ : Nat) (drive : Drive) (p : Pin) : Pin :=
  { p with edges := insertEdge ⟨at_, at_ - deskew, drive⟩ p.edges }

/-- A value transition (R93): none where the driver holds that level already. One that comes less than 125 ps after the last
leaves the level between the two open (R100). -/
def move (deskew : Int) (at_ : Nat) (high : Bool) (p : Pin) : Pin :=
  let goal := if high then Drive.high else Drive.low
  if p.last = goal then p
  else
    let close := decide (p.lastMove < at_) && decide (at_ < p.lastMove + 500)
    let p1 := if close then p.add deskew p.lastMove .unsure else p
    { p1.add deskew at_ goal with lastMove := at_ }

end Pin

/-- The rest level of a format for a new value (R93): high or low. -/
def restLevel (format : Nat) (high : Bool) : Bool :=
  if format = 2 then false else if format = 3 then true else if format = 4 then !high else high

/-- The levels that a driven vector gives a channel, by instant (R93): `b` is the vector's start; RZ and R1 hold their rest level
from there. -/
def vectorMoves (set c b : Nat) (high : Bool) : List (Nat × Bool) :=
  let e (i : Nat) : Nat := b + timeEdge set c i
  match timeFormat set c with
  | 1 => [(e 1, high)]
  | 2 => if high then [(b, false), (e 1, true), (e 2, false)] else [(b, false)]
  | 3 => if high then [(b, true)] else [(b, true), (e 1, false), (e 2, true)]
  | 4 => [(e 0, !high), (e 1, high), (e 2, !high)]
  | _ => []

/-- The edges of a vector whose state is `code`, K resolved, in timing set `set`, started at `b`, on a channel of drive deskew
`deskew` (R63, R93, R94, R98, R105). Below 500 ps the driver turns on and off at the data edge. An OFF channel plays D0 and D1 as
X. -/
def Pin.vector (set c b code : Nat) (deskew : Int) (p : Pin) : Pin :=
  let narrow := decide (timePeriod set < 500)
  let on := b + timeEdge set c (if narrow then 1 else 0)
  let off := b + timeEdge set c (if narrow then 1 else 3)
  let idle := if code = 6 then Drive.vtt else Drive.off
  let drives := decide (code ≤ 1) && timeFormat set c != 0
  let high := code == 1
  let p1 :=
    if drives then
      let q := if p.drove then p else p.add deskew on (if restLevel (timeFormat set c) high then .high else .low)
      ((vectorMoves set c b high).filter fun m => p.drove || decide (on ≤ m.1)).foldl (fun x m => x.move deskew m.1 m.2) q
    else if p.drove then p.add deskew off idle
    else if p.last = idle then p else p.add deskew b idle
  { p1 with code := code, drove := drives }

namespace Device

/-! ## Vectors at the pin (R80, R105, R106, R155) -/

/-- The timing set that quad `q` plays (R99). -/
def timingSet (d : Device) (q : Nat) : Nat := d.act (quadIx q) (0x20 + d.o (quadIx q) 0x1D)

/-- The start at the plane of a vector whose boundary passes the commit point at `boundary` ps, 16 ns later, in quarter
picoseconds (R155). -/
def planeStart (boundary : Nat) : Nat := 4 * (boundary + 16000)

/-- State `code` of a vector that starts at `start` (R63, R127): its edges are launched earlier by the drive fixture delay
(R106); what the PPMU suppresses is counted (R80), but not in a hold vector (R156; DESIGN CHOICE, log entry 102). The snapshot shows
the state as the vector has it (R307), of a hold vector that of the vector it repeats. -/
def playState (n code start : Nat) (hold : Bool) (d : Device) : Device :=
  let q := n / 4
  let p := (d.pinOf n).settled (4000 * d.cycle)
  let kept := if code = 7 then p.code else code
  let moved := p.vector (d.timingSet q) (n % 4) (start - driveDelay (d.act (quadIx q) 0x1E) (n % 4)) kept (d.oi (chanIx n) 0x19)
  let d1 := d.setPin n { moved with shown := if hold then p.shown else code }
  if !hold && d.ppmuOverrides n && (decide (kept ≤ 1) || kept == 6) then d1.addWrap (chanIx n) 0x18 8 1 else d1

/-! ## What the pin shows (R64, R80, R91, R357, R362) -/

/-- What the vectors played so far put on the pin now; on a channel that a head uses `channelDrive` says which level it is (R309). -/
def pinDrive (d : Device) (n : Nat) : Drive := ((d.pinOf n).settled (4000 * d.cycle)).drive

/-- A calibration run of the tile is in its LEVEL part (R363): that of a LEVEL calibration, or, of both kinds, once the 65 timing
units of the run have finished. -/
def levelRun (d : Device) (t : Nat) : Bool :=
  let before := if d.o (0x1410 + t) 0x01 = 3 then 137 else 0
  d.calibrating t && bit (d.calOf t).kinds 1 && (!(bit (d.calOf t).kinds 0) || decide (before + 65 ≤ d.o (0x1410 + t) 0x0A))

/-- The measurement path of DPS channel `k` is switched to the tile's reference taps, for at most 20 ms of a LEVEL run (R362). -/
def pathSwitched (d : Device) (k : Nat) : Bool :=
  let x := d.calOf (k / 8)
  d.levelRun (k / 8) && x.path.any fun p =>
    p.1 == k % 8 && decide (Cells.read 0 (k % 8) x.pathUsed + (d.cycle - p.2) < 20000000)

/-- The channel drives the square wave of a TIMING run between VIL and VIH, in PIN mode (R357, R362). -/
def squareWave (d : Device) (n : Nat) : Bool :=
  d.calibrating (n / 64) && d.o (0x1410 + n / 64) 0x01 != 4 && !(d.levelRun (n / 64)) && !(bit (d.calOf (n / 64)).internal (n % 64))

/-- The driver of a channel is on (R80, R91); while its tile calibrates, with the square wave only (R362). -/
def drives (d : Device) (n : Nat) : Bool :=
  if d.calibrating (n / 64) then d.squareWave n
  else [Drive.low, .high, .unsure].contains (d.pinDrive n) && !(d.ppmuOverrides n) && decide (d.powerState (n / 64) ≤ 3)

/-- The termination of a channel is connected: at DZ, and with the driver off by the termination mode as it stands (R63, R64);
while its tile calibrates, on the channels that are at DZ in a TIMING run (R362). -/
def terminates (d : Device) (n : Nat) : Bool :=
  if d.calibrating (n / 64) then !(d.levelRun (n / 64)) && !(d.squareWave n)
  else
    (d.pinDrive n == .vtt || (d.pinDrive n == .off && d.act (chanIx n) 0x01 == 1)) && !(d.ppmuOverrides n) &&
      decide (d.powerState (n / 64) ≤ 3)

/-! ## Comparators (R63, R65, R96, R97) -/

/-- The most that a comparator's decision can be off its threshold, in nV (R394): 5 mV while the channel's levels run on fuse trims, then
0.02 % of the setting and 2 mV. -/
def comparatorOffset (trims : Bool) (threshold : Int) : Int :=
  if trims then 5000000 else (threshold.natAbs : Int) / 5000 + 2000000

/-- A pin voltage is below a threshold; where the offset decides it, either way (R65). -/
def belowAt (trims : Bool) (v threshold : Int) (free : Bool) : Bool :=
  if (v - threshold).natAbs ≤ (comparatorOffset trims threshold).natAbs then free else decide (v < threshold)

/-- The voltage `v` at instant `at_` lies outside the passing region of a compare state (R63, R65). -/
def sampleFails (d : Device) (x : Strobe) (at_ : Nat) (v : Int) : Bool :=
  let q := x.chan / 4
  let i := 6 * (x.chan % 4)
  let belowLow := belowAt (d.onTrims x.chan 1) v (d.outputNow q (i + 4) (at_ / 4)) (Config.comparator d.freeCtr (2 * x.chan))
  let belowHigh := belowAt (d.onTrims x.chan 1) v (d.outputNow q (i + 3) (at_ / 4)) (Config.comparator d.freeCtr (2 * x.chan + 1))
  match x.code with
  | 2 => !belowLow
  | 3 => belowHigh
  | _ => belowLow || !belowHigh

/-- The longest excursion outside the passing region in a window (R97), in quarter picoseconds, over the pieces of the pin's
voltage from `at_` on: `run` is the excursion so far. -/
def longestExcursion (d : Device) (x : Strobe) : Nat → Nat → List (Nat × Int) → Nat
  | _, run, [] => run
  | at_, run, (width, v) :: l =>
    let w := min width (x.second - at_)
    if d.sampleFails x at_ v then d.longestExcursion x (at_ + w) (run + w) l
    else max run (d.longestExcursion x (at_ + w) 0 l)

/-- A compare fails by the pin's voltage at its strobes (R96, R97): `volts` is the voltage at strobe 1 and at strobe 2, or its
pieces from the begin of the window on. An excursion shorter than 50 ps may or may not be detected. -/
def strobeFails (d : Device) (x : Strobe) (volts : List (Nat × Int)) : Bool :=
  let free := Config.comparator d.freeCtr (1024 + x.chan)
  match volts with
  | [] => free
  | (_, v) :: rest =>
    if x.mode = 0 then d.sampleFails x x.first v
    else if x.mode = 1 then d.sampleFails x x.first v || (match rest with
      | (_, u) :: _ => d.sampleFails x x.second u
      | [] => free)
    else
      let n := d.longestExcursion x x.first 0 volts
      if 200 ≤ n then true else if n = 0 then false else free

/-- The channels whose compares fail, as a mask (R63, R96). -/
def failMask (d : Device) (strobes : List Strobe) (seen : List Seen) : Nat :=
  strobes.foldl (fun m x =>
    let volts := ((seen.find? fun y => y.chan.val == x.chan).map fun y => y.volts).getD []
    if d.strobeFails x volts then setBit m x.chan true else m) 0

end Device
end Sys2Proof.Machine
end

