-- ==== Sys2Proof/Machine/Dps.lean ====
section
/-!
DEFINITION. Device power supplies (R213 to R233): the block and its commit, the update tick with ramps, rails and
charge, samples, clamps, sense, alarms, window monitors, gangs, and the shutdown by rank.
-/
namespace Sys2Proof.Machine

/-- The half of a DPS channel (R213): 0 W, 1 E. -/
def dpsHalf (k : Nat) : Nat := k / 32

/-- The eight channels of tile `t` (R213). -/
def tileDps (t : Nat) : List Nat := (List.range 8).map fun i => 8 * t + i

/-- The rail object of a half (R225): the W objects start at subindex 1, the E objects at 0x11. -/
def railSub (half i : Nat) : Nat := 16 * half + i

/-- 1.2 V and 2.0 V in 10 µV. -/
def railMargin : Int := 120000
def railSpan : Int := 200000

/-- The places of a window monitor's fields in a DPS block (R227, R233): the first of its six staged fields, its state
and its self-check result. -/
structure MonPlace where
  first : Nat
  state : Nat
  result : Nat
deriving DecidableEq, Repr

def voltPlace : MonPlace := ⟨0x0B, 0x25, 0x29⟩
def currPlace : MonPlace := ⟨0x11, 0x26, 0x2A⟩
def placeOf (current : Bool) : MonPlace := if current then currPlace else voltPlace

namespace Device

/-! ## Channels and gangs (R223, R224) -/

def gangByte (rec i : Nat) : Nat := fld rec i 1

/-- The master of a channel by the active gang map. -/
def gangMaster (d : Device) (k : Nat) : Nat := 8 * (k / 8) + gangByte (d.act (tileIx (k / 8)) 0x30) (k % 8)

def isMember (d : Device) (k : Nat) : Bool := d.gangMaster k != k

/-- Channels in the gang of `k`: 0 for a member, 1 for an independent channel (0x2300+d.2F). -/
def gangSize (d : Device) (k : Nat) : Nat :=
  if d.isMember k then 0 else ((tileDps (k / 8)).filter fun j => d.gangMaster j == k).length

/-- The mode is ON. -/
def dpsOn (d : Device) (k : Nat) : Bool := d.act (dpsIx k) 0x01 == 1

/-- The channel forces its output: ON, no gang member, not disconnected. -/
def dpsForces (d : Device) (k : Nat) : Bool := d.dpsOn k && !(d.isMember k) && !(d.dpsOf k).disconnected

/-- Measured rail of a half in 10 µV. -/
def rail (d : Device) (half : Nat) : Int := d.oi 0x1380 (railSub half 1)

/-- The set point that a ramp moves toward, in µV. -/
def forceUv (d : Device) (k : Nat) : Int := 10 * d.acti (dpsIx k) 0x02

/-- The output state object from what the channel does (R216, R219, R220, R224, R228). -/
def dpsStateOf (d : Device) (k : Nat) : Nat :=
  let x := d.dpsOf k
  if d.isMember k then 6
  else if x.disconnected then 5
  else if !(d.dpsOn k) then 0
  else if x.clamped then 4
  else if x.ramping then 1
  else if 4 ≤ x.inBand then 3 else 2

def settleDps (k : Nat) (d : Device) : Device := d.w (dpsIx k) 0x23 (d.dpsStateOf k)

/-! ## The DPS commit (R215, R226) -/

def dpsKeys (k : Nat) : List Nat := subKeys (dpsIx k) 0x01 23
def dpsStatusKey (k : Nat) : Nat := okey (dpsIx k) 0x19

/-- The hysteresis of a pending monitor is negative, or its INIT is none of R88. -/
def monOutOfRange (d : Device) (k : Nat) (m : MonPlace) : Bool :=
  decide (d.pndi (dpsIx k) (m.first + 3) < 0) || decide (d.pndi (dpsIx k) (m.first + 4) < 0) ||
  decide (2 < d.pnd (dpsIx k) (m.first + 5))

/-- The thresholds of a pending monitor disagree (R87). -/
def monInconsistent (d : Device) (k : Nat) (m : MonPlace) : Bool :=
  decide (d.pndi (dpsIx k) (m.first + 2) - d.pndi (dpsIx k) (m.first + 4) ≤
    d.pndi (dpsIx k) (m.first + 1) + d.pndi (dpsIx k) (m.first + 3))

/-- The checks of R215 on the pending copy. -/
def dpsCheck (k : Nat) (d : Device) : Nat :=
  let v (sub : Nat) : Nat := d.pnd (dpsIx k) sub
  let i (sub : Nat) : Int := d.pndi (dpsIx k) sub
  let on := v 0x01 == 1
  verdict [
    (codeOutOfRange, decide (1 < v 0x01) || decide (i 0x02 < -100000) || decide (700000 < i 0x02) || decide (5 < v 0x03) ||
      decide (i 0x04 < -8388607) || decide (8388607 < i 0x04) || decide (i 0x05 < -8388607) || decide (8388607 < i 0x05) ||
      decide (1000000 < v 0x06) || (v 0x07 != 0 && (decide (v 0x07 < 10) || decide (100000 < v 0x07))) ||
      decide (3 < v 0x08) || decide (63 < v 0x09) || decide (2 < v 0x0A) || decide (100000 < v 0x17) ||
      d.monOutOfRange k voltPlace || d.monOutOfRange k currPlace),
    (codeZeroRefused, v 0x07 == 0 || v 0x17 == 0),
    (codeInconsistent, decide (i 0x04 < i 0x05 + 83886) || d.monInconsistent k voltPlace || d.monInconsistent k currPlace),
    (0x0132, d.isMember k),
    (0x0133, on && decide (2 ≤ d.gangSize k) && decide (v 0x03 < 4)),
    (0x0131, on && decide (d.rail (dpsHalf k) < i 0x02 + railMargin))]

/-- A write of the commit object: it waits for the next update tick (R215). -/
def dpsCommitOp (k : Nat) (d : Device) : Device :=
  commitWrite (.dps k) (dpsKeys k) (dpsStatusKey k) (dpsCheck k) d

/-- A monitor after a block has been applied: newly enabled it starts from INIT (R88, R227); disabled it reads OFF. -/
def monApplied (old : Device) (k : Nat) (current : Bool) (d : Device) : Device :=
  let m := placeOf current
  let set (x : Monitor) (e : Device) : Device := if current then e.setMonI k x else e.setMonV k x
  if d.act (dpsIx k) m.first = 0 ∨ d.isMember k = true then (set Monitor.init d).w (dpsIx k) m.state 3
  else if old.act (dpsIx k) m.first = 0 ∨ old.isMember k = true then
    let x := Monitor.started (d.act (dpsIx k) (m.first + 5))
    (set x d).w (dpsIx k) m.state x.code
  else d

/-- The next three samples are discarded and the count restarts (R222). -/
def restartSamples (k : Nat) (d : Device) : Device :=
  (d.setDps k { d.dpsOf k with skip := 3, inBand := 0 }).w (dpsIx k) 0x22 0

/-- A commit applied at the update tick (R216 to R218, R220, R221): `old` is the block before it. -/
def dpsApplied (old : Device) (k : Nat) (d : Device) : Device :=
  let x := d.dpsOf k
  let ch (sub : Nat) : Bool := d.act (dpsIx k) sub != old.act (dpsIx k) sub
  let on := d.dpsOn k
  let start : Int := if x.connected then x.ramp else 0
  let target := d.forceUv k
  let jump := d.act (dpsIx k) 0x06 == 0
  let x1 : DpsChan :=
    if on then { x with connected := true, disconnected := false, ramp := if jump then target else start,
                        ramping := !jump && start != target, inBand := 0,
                        clamped := x.connected && x.clamped }
    else { x with connected := false, ramp := 0, ramping := false, clamped := false, inBand := 0 }
  let d1 := d.setDps k x1
  let d2 := if ch 0x01 || ch 0x03 || ch 0x08 then restartSamples k d1 else d1
  let d3 := if on then d2.w (dpsIx k) 0x2E 0 else d2
  settleDps k (monApplied old k true (monApplied old k false d3))

/-- A pending DPS commit at the update tick (R215); none is applied while boot is FAILED, where every channel stays OFF (R333). -/
def dpsBoundary (k : Nat) (d : Device) : Device :=
  if d.failed then d
  else
  let d1 := commitBoundary (.dps k) (dpsKeys k) (dpsStatusKey k) (dpsCheck k) (dpsApplied d k) d
  if d.pends (.dps k) then dpsSetDone k (d1.get (dpsStatusKey k)) d1 else d1

/-! ## Gang commits (R223) -/

def gangKeys (t : Nat) : List Nat := [okey (tileIx t) 0x30]
def gangStatusKey (t : Nat) : Nat := okey (tileIx t) 0x32

/-- The checks of R223 on the pending map. -/
def gangCheck (t : Nat) (d : Device) : Nat :=
  let m := d.pnd (tileIx t) 0x30
  let a := d.act (tileIx t) 0x30
  verdict [
    (codeInconsistent, (List.range 8).any fun i => decide (i < gangByte m i) || gangByte m (gangByte m i) != gangByte m i),
    (codeBusy, (List.range 8).any fun i => gangByte m i != gangByte a i && d.dpsOn (8 * t + i))]

def gangCommitOp (t : Nat) (d : Device) : Device :=
  commitWrite (.gang t) (gangKeys t) (gangStatusKey t) (gangCheck t) d

/-- Channel `k` after a gang map has been applied: its gang size, its discarded samples where its gang changes, a
member's results and monitors (R222 to R224). -/
def gangApplied (old : Device) (k : Nat) (d : Device) : Device :=
  let members (e : Device) : List Nat := (tileDps (k / 8)).filter fun j => e.gangMaster j == e.gangMaster k
  let d1 := if members d != members old || d.gangMaster k != old.gangMaster k then restartSamples k d else d
  let d2 := d1.w (dpsIx k) 0x2F (d.gangSize k)
  let d3 := if d.isMember k then (d2.w (dpsIx k) 0x20 0).w (dpsIx k) 0x21 0 else d2
  settleDps k (monApplied old k true (monApplied old k false d3))

def gangBoundary (t : Nat) (d : Device) : Device :=
  commitBoundary (.gang t) (gangKeys t) (gangStatusKey t) (gangCheck t) (each (gangApplied d) (tileDps t)) d

/-! ## Alarms (R228) -/

/-- The output disconnects at once (R228, R229). -/
def disconnectDps (k : Nat) (d : Device) : Device :=
  let x := d.dpsOf k
  settleDps k (d.setDps k { x with connected := false, disconnected := true, ramp := 0, ramping := false, clamped := false,
                                   inBand := 0 })

/-- The active force voltage becomes 0 and the channel ramps there at its ramp rate (R228, R229). -/
def rampDown (k : Nat) (d : Device) : Device :=
  let d1 := d.wact (dpsIx k) 0x02 0
  let x := d1.dpsOf k
  let jump := d.act (dpsIx k) 0x06 == 0
  settleDps k (d1.setDps k { x with ramp := if jump then 0 else x.ramp, ramping := !jump && x.ramp != 0, inBand := 0 })

/-- The alarm action of a channel that forces its output; one already under way is not restarted (R228). -/
def alarmAction (k : Nat) (d : Device) : Device :=
  let a := d.act (dpsIx k) 0x0A
  if d.dpsForces k = false then d
  else if a = 1 then (if d.act (dpsIx k) 0x02 = 0 then d else rampDown k d)
  else if a = 2 then disconnectDps k d
  else d

/-- A DPS alarm of cause `c` (R228): the count, the cause bit, one occurrence for the alarms of a tick, the action. -/
def dpsAlarm (k c : Nat) (d : Device) : Device :=
  let x := d.dpsOf k
  let d1 := (d.addSat (dpsIx k) 0x27 4 1).wbit (dpsIx k) 0x24 c true
  let d2 := if x.alarmed then d1 else (d1.raise (clusterSource (k / 2) 2)).setDps k { x with alarmed := true }
  alarmAction k d2

/-! ## Clamps, sense and headroom (R219, R221, R226) -/

/-- A current clamp engages (R219). -/
def dpsClampOp (k : Nat) (d : Device) : Device :=
  let x := d.dpsOf k
  if d.dpsForces k && !x.clamped then
    dpsAlarm k 2 (settleDps k ((d.setDps k { x with clamped := true, inBand := 0 }).setDpsConv k { d.dpsConvOf k with clamp := true }))
  else d

/-- The load falls back inside the clamps (R219). -/
def dpsUnclampOp (k : Nat) (d : Device) : Device :=
  settleDps k (d.setDps k { d.dpsOf k with clamped := false })

/-- An open sense: local sense and an alarm (R221). -/
def senseOpenOp (k : Nat) (d : Device) : Device :=
  if d.dpsForces k && d.o (dpsIx k) 0x2E == 0 then dpsAlarm k 4 (d.w (dpsIx k) 0x2E 1) else d

/-- The rail has been too close to the output for 10 µs (R226). -/
def headroomOp (k : Nat) (d : Device) : Device := if d.dpsForces k then dpsAlarm k 3 d else d

/-! ## Samples (R220, R222) -/

/-- A valid voltage sample lies within the settle band. -/
def inBand (d : Device) (k : Nat) (uv : Int) : Bool :=
  decide ((uv - d.forceUv k).natAbs ≤ 10 * d.act (dpsIx k) 0x07)

/-- The current result in codes: it can reach 110 % of full scale (R222). -/
def dpsCurrent (current : Int) : Int := max (-9227468) (min 9227468 current)

/-- A DPS conversion completes (R222), and a measuring step takes it (R195); the acquisition unit finds it at its next grid
instant (R235). One made while a LEVEL run has switched the measurement path is invalid (R362). Samples in the band count toward
SETTLED once the ramp has ended and no clamp is engaged (R220). -/
def dpsSampleOp (k : Nat) (uv input : Int) (d : Device) : Device :=
  let x := d.dpsOf k
  let current := dpsCurrent input
  if d.isMember k || d.pathSwitched k then d
  else if x.skip ≠ 0 then d.setDps k { x with skip := x.skip - 1 }
  else
    let d1 := ((d.w (dpsIx k) 0x20 (ux 32 uv)).w (dpsIx k) 0x21 (ux 32 current)).addWrap (dpsIx k) 0x22 4 1
    let n := if d.inBand k uv && !x.ramping && !x.clamped then min 4 (x.inBand + 1) else 0
    let y := d.dpsConvOf k
    let d2 := settleDps k ((d1.setDps k { x with inBand := n }).setDpsConv k
      { volt := some uv, cur := some current, clamp := y.clamp || x.clamped })
    if d.dpsOn k then sampleTaken 2 k uv (sampleTaken 3 k current d2) else d2

/-! ## Window monitors (R227) -/

def dpsMon (d : Device) (k : Nat) (current : Bool) : Monitor := if current then d.monI k else d.monV k
def setDpsMon (k : Nat) (current : Bool) (x : Monitor) (d : Device) : Device :=
  if current then d.setMonI k x else d.setMonV k x

def dpsMonEnabled (d : Device) (k : Nat) (current : Bool) : Bool :=
  d.act (dpsIx k) (placeOf current).first == 1 && !(d.isMember k)

/-- A tick of a DPS monitor (R87, R90, R227, R228). -/
def dpsMonitorTickOp (k : Nat) (current : Bool) (sample : MonSample) (d : Device) : Device :=
  let m := placeOf current
  let x := d.dpsMon k current
  let v (i : Nat) : Int := d.acti (dpsIx k) (m.first + i)
  if !(d.dpsMonEnabled k current) then d
  else if x.check ≠ 0 then (if x.ticks < 4 then setDpsMon k current (x.checked (v 1) (v 2) (v 3) (v 4) sample) d else d)
  else
    let x' := x.sampled (v 1) (v 2) (v 3) (v 4) sample.value
    let d1 := (setDpsMon k current x' d).w (dpsIx k) m.state x'.code
    if x.alarms x' then dpsAlarm k (if current then 1 else 0) d1 else d1

/-- A self-check request: 1 and 2 the voltage monitor, 3 and 4 the current monitor, SWAP before TIE (R227). -/
def dpsSelfCheckOp (k v : Nat) (d : Device) : Device :=
  let current := decide (3 ≤ v)
  let m := placeOf current
  let x := d.dpsMon k current
  if !(d.dpsMonEnabled k current) then d.w (dpsIx k) m.result 4
  else if x.check ≠ 0 then d
  else (setDpsMon k current { x with check := if v % 2 = 1 then 1 else 2, ticks := 0, normal := (false, false), good := true } d).w
    (dpsIx k) m.result 1

/-- A DPS monitor's self-check ends after tick 4: a FAIL raises the alarm source and is no alarm (R90). -/
def dpsSelfCheckDone (k : Nat) (current : Bool) (d : Device) : Device :=
  let x := d.dpsMon k current
  if x.check = 0 ∨ x.ticks < 4 then d
  else
    let d1 := (setDpsMon k current { x with check := 0, ticks := 0, normal := (false, false), good := true } d).w
      (dpsIx k) (placeOf current).result
      (if x.good then 2 else 3)
    if x.good then d1 else d1.raise (clusterSource (k / 2) 2)

/-- The self-check of a monitor ends (R90). -/
def monitorCheckDone (m : MonId) (d : Device) : Device :=
  match m with
  | .chan n => selfCheckDone n.val d
  | .dpsV k => dpsSelfCheckDone k.val false d
  | .dpsI k => dpsSelfCheckDone k.val true d

/-! ## The update tick (R215 to R217, R223, R225, R231, R232) -/

/-- One µs of a ramp (R217). -/
def rampStep (k : Nat) (d : Device) : Device :=
  let x := d.dpsOf k
  if x.ramping then
    let target := d.forceUv k
    let rate : Int := (d.act (dpsIx k) 0x06 : Nat)
    let p := if (target - x.ramp).natAbs ≤ d.act (dpsIx k) 0x06 then target
             else if x.ramp < target then x.ramp + rate else x.ramp - rate
    settleDps k (d.setDps k { x with ramp := p, ramping := p != target })
  else d

/-- The charge of the µs that ends here (R231), and a clear that was asked for (R232). -/
def chargeStep (k : Nat) (fc : Int) (d : Device) : Device :=
  let x0 := d.dpsOf k
  let x := { x0 with gridSum := if d.dpsForces k then x0.gridSum + fc else x0.gridSum }
  if x.clearAsked then
    setBaseline 4 k 0 (((d.w (dpsIx k) 0x2B 0).w (dpsIx k) 0x2D 0).setDps k { x with clearAsked := false, increments := 0 })
  else if d.dpsForces k then
    let sum := sx 64 (d.o (dpsIx k) 0x2B) + fc
    let top : Int := 2 ^ 63 - 1
    let full := decide (top < sum) || decide (sum < -top)
    let acc := if top < sum then top else if sum < -top then -top else sum
    let d1 := (d.w (dpsIx k) 0x2B (ux 64 acc)).setDps k { x with increments := x.increments + fc }
    if full then d1.w (dpsIx k) 0x2D 1 else d1
  else d

def chargeSteps : List Nat → List Int → Device → Device
  | [], _, d => d
  | k :: ks, [], d => chargeSteps ks [] (chargeStep k 0 d)
  | k :: ks, c :: cs, d => chargeSteps ks cs (chargeStep k c d)

/-- A new µs: the next alarm raises an occurrence again (R228). -/
def newTick (k : Nat) (d : Device) : Device :=
  let x := d.dpsOf k
  if x.alarmed then d.setDps k { x with alarmed := false } else d

/-- Channels of a half in mode ON. -/
def halfOn (d : Device) (half : Nat) : List Nat := (List.range 64).filter fun k => dpsHalf k == half && d.dpsOn k

/-- The highest output of a half in 10 µV (R225), 0 with no channel ON. -/
def highest (d : Device) (half : Nat) : Int :=
  match d.halfOn half with
  | [] => 0
  | k :: ks =>
    let h (j : Nat) : Int := max (d.acti (dpsIx j) 0x02) (tdiv (d.dpsOf j).ramp 10)
    ks.foldl (fun m j => max m (h j)) (h k)

/-- The rail objects of a half (R225); RAIL-W or RAIL-E is raised as status bit 0 or 1 becomes set (R293). -/
def railReport (half : Nat) (measured : Int) (d : Device) : Device :=
  let h := d.highest half
  let none_ := (d.halfOn half).isEmpty
  let lo : Int := if none_ then 0 else max h 0 + railMargin
  let hi : Int := if none_ then 0 else max h 0 + railSpan
  let status := if none_ then 4 else (if measured < lo then 1 else 0) + (if hi < measured then 2 else 0)
  let was := d.o 0x1380 (railSub half 5)
  let d1 := ((((d.w 0x1380 (railSub half 1) (ux 32 measured)).w 0x1380 (railSub half 2) (ux 32 lo)).w 0x1380 (railSub half 3)
    (ux 32 hi)).w 0x1380 (railSub half 4) (ux 32 h)).w 0x1380 (railSub half 5) status
  if (bit status 0 && !(bit was 0)) || (bit status 1 && !(bit was 1)) then d1.raise (4 + half) else d1

/-- New coefficients take effect (R365). -/
def newCoefs (k : Nat) (d : Device) : Device :=
  let c := d.coefsOf (k / 8) (129 + k % 8)
  if (d.dpsOf k).coefs = c then d else d.setDps k { d.dpsOf k with coefs := c }

/-- The voltage in nV that a forcing channel's loop holds when it has settled: its ramp point as the force correction in force has it,
within the figure of R395 once the channel has been calibrated (R217, R365). -/
def dpsOutput (d : Device) (k : Nat) : Int :=
  let x := d.dpsOf k
  let v := 1000 * x.ramp
  match x.coefs with
  | some c =>
    let b : Int := 3 * v.natAbs / 10000 + 300000
    let fix := c.volts.getD 0 0 + c.volts.getD 1 0 * x.ramp / 7000000
    max (v - b) (min (v + b) (v + fix + Config.dpsDeviation k x.ramp))
  | none => v + Config.dpsDeviation k x.ramp

/-- The update tick (log entry 9 gives the order of its parts): the rails are measured, the charge of the past µs counts
for the channels that forced in it, ramps advance, then gang maps, blocks and calibration coefficients are applied. -/
def dpsTickOp (railW railE : Int) (charge : List Int) (d : Device) : Device :=
  let d1 := (d.w 0x1380 (railSub 0 1) (ux 32 railW)).w 0x1380 (railSub 1 1) (ux 32 railE)
  let d2 := each newTick (List.range 64) d1
  let d3 := each rampStep (List.range 64) (chargeSteps (List.range 64) charge d2)
  let d4 := each dpsBoundary (List.range 64) (each gangBoundary (List.range 8) d3)
  railReport 1 railE (railReport 0 railW (each newCoefs (List.range 64) d4))

/-! ## Shutdown by rank (R229) -/

/-- The highest rank below `bound` among the channels that force. -/
def topRank (d : Device) (bound : Nat) : Option Nat :=
  ((List.range bound).reverse).find? fun r => (List.range 64).any fun k => d.dpsForces k && d.act (dpsIx k) 0x09 == r

def rankChans (d : Device) (r : Nat) : List Nat :=
  (List.range 64).filter fun k => d.dpsForces k && d.act (dpsIx k) 0x09 == r

/-- The highest rank present begins; with none left every channel disconnects. -/
def beginRank (bound : Nat) (d : Device) : Device :=
  match d.topRank bound with
  | some r =>
    let d1 := each rampDown (d.rankChans r) d
    { d1 with dps := { d1.dps with rank := some (r, d.cycle) } }
  | none =>
    let d1 := each (fun k e => if e.dpsOn k then disconnectDps k e else e) (List.range 64) d
    { d1 with dps := { d1.dps with rank := none } }

/-- A rank has ended: its channels read 50 mV or less, or 5 ms have passed (R229). -/
def rankEnded (d : Device) (r began : Nat) : Bool :=
  decide (began + 5000000 ≤ d.cycle) || (d.rankChans r).all fun k => decide ((d.oi (dpsIx k) 0x20).natAbs ≤ 50000)

def rankAdvanceOp (d : Device) : Device :=
  match d.dps.rank with
  | none => d
  | some (r, began) => if d.rankEnded r began then beginRank r d else d

/-- The output of channel `k` is still connected: it has neither disconnected nor been switched OFF (R229). -/
def dpsConnected (d : Device) (k : Nat) : Bool := d.dpsOn k && !(d.dpsOf k).disconnected

/-- Channel `k` is OFF at once (R333): its active mode, and its output high-impedance. -/
def dpsOff (k : Nat) (d : Device) : Device :=
  let d1 := d.wact (dpsIx k) 0x01 0
  settleDps k (d1.setDps k { d1.dpsOf k with connected := false, disconnected := false, ramp := 0, ramping := false,
                                             clamped := false, inBand := 0 })

/-- Every DPS channel is OFF (R333). -/
def allDpsOff (d : Device) : Device :=
  let d1 := each dpsOff (List.range 64) d
  { d1 with dps := { d1.dps with rank := none } }

/-- Every output disconnects at once, without ranks (R229, R384). -/
def disconnectAll (d : Device) : Device :=
  let d1 := each (fun k e => if e.dpsOn k then disconnectDps k e else e) (List.range 64) d
  { d1 with dps := { d1.dps with rank := none } }

end Device

/-! ## Meanings -/

open Device

/-- SELF_CHECK_COMPLETE (R90, R227). -/
def execSelfCheckComplete (m : MonId) (s : State) : Host.Outcome State Fault Refusal :=
  nextDev s (monitorCheckDone m s.dev)

/-- DPS_COMMIT (R215). -/
def execDpsCommit (p : Port) (d : Dps) (v : Byte) (s : State) : Host.Outcome State Fault Refusal :=
  nextDev s (hostWrite s.dev p (dpsIx d.val) 0x18 v.toNat false (dpsCommitOp d.val))

/-- DPS_UPDATE_TICK (R215 to R217, R223, R225, R231). -/
def execDpsUpdateTick (railW railE : Int) (charge : List Int) (s : State) : Host.Outcome State Fault Refusal :=
  nextDev s (dpsTickOp railW railE charge s.dev)

/-- GANG_COMMIT (R223). -/
def execGangCommit (p : Port) (t : Tile) (v : Byte) (s : State) : Host.Outcome State Fault Refusal :=
  nextDev s (hostWrite s.dev p (tileIx t.val) 0x31 v.toNat false (gangCommitOp t.val))

/-- DPS_SAMPLE (R195, R220, R222). -/
def execDpsSample (d : Dps) (microvolt current : Int) (s : State) : Host.Outcome State Fault Refusal :=
  nextDev s (dpsSampleOp d.val microvolt current s.dev)

/-- DPS_CLAMP_ENGAGE (R219). -/
def execDpsClampEngage (d : Dps) (s : State) : Host.Outcome State Fault Refusal := nextDev s (dpsClampOp d.val s.dev)

/-- DPS_CLAMP_RELEASE (R219). -/
def execDpsClampRelease (d : Dps) (s : State) : Host.Outcome State Fault Refusal := nextDev s (dpsUnclampOp d.val s.dev)

/-- SENSE_OPEN (R221). -/
def execSenseOpen (d : Dps) (s : State) : Host.Outcome State Fault Refusal := nextDev s (senseOpenOp d.val s.dev)

/-- HEADROOM (R226). -/
def execHeadroom (d : Dps) (s : State) : Host.Outcome State Fault Refusal := nextDev s (headroomOp d.val s.dev)

/-- DPS_MONITOR_TICK (R227). -/
def execDpsMonitorTick (d : Dps) (current : Bool) (sample : MonSample) (s : State) : Host.Outcome State Fault Refusal :=
  nextDev s (dpsMonitorTickOp d.val current sample s.dev)

/-- DPS_SELF_CHECK_REQUEST (R227). -/
def execDpsSelfCheckRequest (p : Port) (d : Dps) (v : Byte) (s : State) : Host.Outcome State Fault Refusal :=
  nextDev s (hostWrite s.dev p (dpsIx d.val) 0x28 v.toNat false (dpsSelfCheckOp d.val v.toNat))

/-- CHARGE_CLEAR (R232). -/
def execChargeClear (p : Port) (d : Dps) (v : Byte) (s : State) : Host.Outcome State Fault Refusal :=
  nextDev s (hostWrite s.dev p (dpsIx d.val) 0x2C v.toNat false
    (fun e => e.setDps d.val { e.dpsOf d.val with clearAsked := true }))

/-- SHUTDOWN_RANK_ADVANCE (R229). -/
def execShutdownRankAdvance (s : State) : Host.Outcome State Fault Refusal := nextDev s (rankAdvanceOp s.dev)

end Sys2Proof.Machine
end

