-- ==== Sys2Proof/Machine/Acq.lean ====
section
/-!
DEFINITION. The acquisition units (R234 to R245): inputs and triggers, the commit, arming and admission, sample sets,
records, reductions and the capture's end.
-/
namespace Sys2Proof.Machine

/-- Acquisition states (0x2280+c.60). -/
def acqIdle : Nat := 0
def acqAdmitting : Nat := 1
def acqCreditWait : Nat := 2
def acqReady : Nat := 3
def acqCapturing : Nat := 4
def acqWriting : Nat := 5
def acqDone : Nat := 6
def acqRefused : Nat := 7

/-- Kind and resource of an input code (R234). -/
def inputKind (v : Nat) : Nat := v % 256
def inputRes (v : Nat) : Nat := v / 256 % 16
def isAdcKind (k : Nat) : Bool := decide (1 ≤ k) && decide (k ≤ 5)
def isTmuKind (k : Nat) : Bool := k == 6

/-- The grid rates of R84 and R235 in samples per second. -/
def gridRate (code : Nat) : Nat := 1000 * 10 ^ code

/-- The owner number of a unit's grant. -/
def acqOwner (c : Nat) : Nat := 0x100 + c

/-- Floor division of integers toward minus infinity, as a natural number for a non-negative result. -/
def binIndex (v e w : Int) : Nat := ((v - e) / w).toNat

/-- The histogram bin of a value by a UNIFORM entry (R240). -/
def uniformBin (e w v : Int) : Nat := if v < e then 0 else min 63 (1 + binIndex v e w)

/-- The bin of a value by the 63 edges of a table (R240). -/
def tableBin (edges : List Int) (v : Int) : Nat := (edges.filter fun e => decide (e ≤ v)).length

/-- One valid sample joins a reduction; `b` is its histogram bin (R240). -/
def Reduction.add (r : Reduction) (v : Int) (b : Nat) : Reduction :=
  { r with count := r.count + 1,
           min := if r.count = 0 then v else Min.min r.min v,
           max := if r.count = 0 then v else Max.max r.max v,
           sum := r.sum + v,
           squares := r.squares + v.natAbs ^ 2,
           hist := Cells.write 0 b (Nat.min (Cells.read 0 b r.hist + 1) 4294967295) r.hist }

/-- The 16-byte sample record (R239). -/
def sampleRecord (input : Nat) (x : Sample) (index : Int) : Nat :=
  let v : Int := if x.valid then x.value else 0
  1 + input * 2 ^ 8 + ((if x.valid then 0 else 1) + (if x.clamp then 2 else 0)) * 2 ^ 16 + x.tmuStatus.toNat * 2 ^ 24 +
    ux 32 index * 2 ^ 32 + ux 64 v * 2 ^ 64

/-- The 64-byte REDUCTION entry (R239). -/
def reductionRecord (input : Nat) (r : Reduction) (disarmed forced : Bool) (capture : Nat) : Nat :=
  let top := 2 ^ 128 - 1
  let flags := (if top < r.squares then 1 else 0) + (if disarmed then 2 else 0) + (if forced then 4 else 0)
  0x11 + input * 2 ^ 8 + flags * 2 ^ 16 + r.count % 2 ^ 32 * 2 ^ 32 + ux 64 r.min * 2 ^ 64 + ux 64 r.max * 2 ^ 128 +
    ux 128 r.sum * 2 ^ 192 + Nat.min r.squares top * 2 ^ 320 + capture % 2 ^ 32 * 2 ^ 448 + r.invalid % 2 ^ 32 * 2 ^ 480

/-- The histogram entry `e` (0 to 3) of a reduction: 16 bins as U32 (R239). -/
def histRecord (r : Reduction) (e : Nat) : Nat :=
  (List.range 16).foldl (fun a j => a + Cells.read 0 (16 * e + j) r.hist * 2 ^ (32 * j)) 0

namespace Device

/-! ## Configuration (R234, R236, R241, R244) -/

def acqState (d : Device) (c : Nat) : Nat := d.o (clusterIx c) 0x60
def setAcqState (c v : Nat) (d : Device) : Device := d.w (clusterIx c) 0x60 v

/-- The active input numbers of a unit: those whose kind is not NONE. -/
def acqInputs (d : Device) (c : Nat) : List Nat :=
  (List.range 16).filter fun i => inputKind (d.act (clusterIx c) (0x41 + i)) != 0

def acqInput (d : Device) (c i : Nat) : Nat := d.act (clusterIx c) (0x41 + i)

/-- The active acquisition is of the TMU class. -/
def acqTmu (d : Device) (c : Nat) : Bool := (d.acqInputs c).any fun i => isTmuKind (inputKind (d.acqInput c i))

def acqP (d : Device) (c : Nat) : Nat := d.act (clusterIx c) 0x55
def acqQ (d : Device) (c : Nat) : Nat := d.act (clusterIx c) 0x56

/-- Entries per capture E (R241). -/
def acqEntries (d : Device) (c : Nat) : Nat :=
  let k := (d.acqInputs c).length
  let r := if d.acqTmu c then d.acqP c + d.acqQ c else (d.acqP c + d.acqQ c) * k
  1 + (if d.act (clusterIx c) 0x59 = 1 then ceilDiv r 4 else 0) + 5 * k

/-- The queue that a unit produces into. -/
def acqQueue (d : Device) (c : Nat) : Nat := d.act (clusterIx c) 0x5A

/-- The queue is of class AQ with 64-byte entries (R241): class 2, placed in SDRAM (R272). -/
def isAqQueue (d : Device) (q : Nat) : Bool :=
  decide (q < 262144) && d.queueClass q == 2 && d.queuePlacement q == 0

def acqKeys (c : Nat) : List Nat := subKeys (clusterIx c) 0x40 30
def acqStatusKey (c : Nat) : Nat := okey (clusterIx c) 0x5F

/-- The parameter bits that a trigger source allows (R236). -/
def paramOk (source p : Nat) : Bool :=
  if source = 0 then p == 0 else if source = 1 then decide (p < 128) else if source = 2 then decide (p < 32)
  else decide (p % 256 < 16) && decide (p < 512)

/-- The 63 edges of a table (R240). -/
def tableEdges (v : Nat) : List Int := (List.range 63).map fun j => sx 64 (fld v (8 * j) 8)

/-- Strictly rising edges (R244). -/
def strictlyRising : List Int → Bool
  | [] => true
  | [_] => true
  | a :: b :: l => decide (a < b) && strictlyRising (b :: l)

/-- An input code whose kind, resource or upper bits R234 does not give. -/
def inputBad (v : Nat) : Bool :=
  let k := inputKind v
  decide (6 < k) || decide (4096 ≤ v) || (k == 0 && v != 0) || (decide (3 ≤ k) && decide (k ≤ 5) && decide (1 < inputRes v))

/-- The checks of R244 on the pending copy. -/
def acqCheck (c : Nat) (d : Device) : Nat :=
  let v (sub : Nat) : Nat := d.pnd (clusterIx c) sub
  let ins := (List.range 16).map fun i => v (0x41 + i)
  let used := ins.filter fun x => inputKind x != 0
  let mode (i : Nat) : Nat := fld (v 0x5B) (24 * i) 1
  let width (i : Nat) : Int := sx 64 (fld (v 0x5B) (24 * i + 16) 8)
  let inUse (i : Nat) : Bool := inputKind (v (0x41 + i)) != 0
  let q := v 0x5A
  verdict [
    (codeBusy, d.acqArmed c),
    (codeZeroRefused, v 0x55 + v 0x56 == 0),
    (codeOutOfRange, decide (4096 < v 0x55 * used.length) || ((List.range 16).any fun i => decide (1 < mode i)) ||
      ((List.range 16).any fun i => inUse i && mode i == 0 && decide (width i ≤ 0)) || !(paramOk (v 0x52) (v 0x53)) ||
      decide (2 < v 0x40) || decide (3 < v 0x51) || decide (3 < v 0x52) || decide (3 < v 0x5D) || ins.any inputBad),
    (codeInconsistent, (((List.range 16).any fun i => inUse i && mode i == 1) && !(strictlyRising (tableEdges (v 0x5C)))) ||
      (v 0x52 == 3 && inputKind (v (0x41 + v 0x53 % 16)) == 0)),
    (0x0142, used.isEmpty || (used.any (fun x => isAdcKind (inputKind x)) && used.any (fun x => isTmuKind (inputKind x)))),
    (0x0141, q != noQueue && !(d.isAqQueue q))]

/-- The commit and its boundary, the cycle after the checks (R244). -/
def acqCommitOp (c : Nat) (d : Device) : Device :=
  commitBoundary (.acq c) (acqKeys c) (acqStatusKey c) (acqCheck c) (fun e => e.w (clusterIx c) 0x69 (e.acqEntries c))
    (commitWrite (.acq c) (acqKeys c) (acqStatusKey c) (acqCheck c) d)

/-! ## Demand and admission (R242, R253) -/

/-- The highest result rate of a TMU input, as a fraction (R242). -/
def tmuRate (d : Device) (n : Nat) : Nat × Nat :=
  let m := d.o (chanIx n) 0x1B
  if m = 0 then (50000000, 1) else if m = 1 then (1000000, 1) else (1000000000, d.o (chanIx n) 0x28 + 20)

def addFrac (a b : Nat × Nat) : Nat × Nat := (a.1 * b.2 + b.1 * a.2, a.2 * b.2)

/-- The channel that a TMU or PPMU input names. -/
def inputChan (c v : Nat) : Nat := 16 * c + inputRes v
def inputDps (c v : Nat) : Nat := 2 * c + inputRes v

/-- The demand D in bytes per second (R242). -/
def acqDemand (d : Device) (c : Nat) : Nat :=
  let f : Nat × Nat :=
    if d.acqTmu c then
      (d.acqInputs c).foldl (fun a i => addFrac a (d.tmuRate (inputChan c (d.acqInput c i)))) (0, 1)
    else (gridRate (d.act (clusterIx c) 0x51), 1)
  ceilDiv (f.1 * 64 * d.acqEntries c) (f.2 * max (d.acqQ c) 1)

/-- The slots per table period S (R242): B is 4,000,000 × the data rate. -/
def acqSlots (d : Device) (c : Nat) : Nat := ceilDiv (2048 * d.acqDemand c) (4000000 * d.act 0x1600 0x01)

/-- The populated subchannels of a tile (R246, R247). -/
def tileSubs (d : Device) (t : Nat) : List Nat :=
  ((List.range 4).map fun i => 4 * t + i).filter fun j => d.populated (j / 2)

/-- The CAPTURE demand: ceil(S / n) on each populated subchannel of the queue's tile (R253). A queue whose tile has no
populated subchannel leaves a demand that never fits. -/
def captureDemand (d : Device) (q s : Nat) : List (Nat × Nat) :=
  let subs := d.tileSubs (queueTile q)
  if subs.isEmpty then [(4 * queueTile q, s)] else subs.map fun j => (j, ceilDiv s subs.length)

/-- An ADC input that reason 4 of R243 names: its PPMU or DPS is OFF or a gang member, or its rate is not the grid's. -/
def adcUnfit (d : Device) (c v : Nat) : Bool :=
  let k := inputKind v
  let rate := d.act (clusterIx c) 0x51
  if k = 1 ∨ k = 2 then d.ppmuMode (inputChan c v) == 0 || d.act (chanIx (inputChan c v)) 0x08 != rate
  else if isAdcKind k then
    !(d.dpsOn (inputDps c v)) || d.isMember (inputDps c v) || d.act (dpsIx (inputDps c v)) 0x08 != rate
  else false

/-- The reason to refuse an arm, 0 for none (R243); admission is tried last. -/
def acqRefusal (d : Device) (c : Nat) : Nat :=
  let q := d.acqQueue c
  if 3 ≤ d.powerState (c / 4) then 2
  else if q = noQueue ∨ d.isAqQueue q = false ∨ d.queueEnabled q = false then 3
  else if (d.acqInputs c).any fun i => d.adcUnfit c (d.acqInput c i) then 4
  else if d.demandFits (d.captureDemand q (d.acqSlots c)) then 0 else 1

/-- An arm (R242, R243). -/
def armAcq (c : Nat) (d : Device) : Device :=
  if d.acqArmed c then d
  else
    let r := d.acqRefusal c
    if r ≠ 0 then setAcqState c acqRefused (d.w (clusterIx c) 0x63 r)
    else
      let d1 := (((d.w (clusterIx c) 0x63 0).w (clusterIx c) 0x64 0).w (clusterIx c) 0x65 0).w (clusterIx c) 0x66 0
      let d2 := ((d1.w (clusterIx c) 0x67 (d.acqDemand c)).w (clusterIx c) 0x68 (d.acqSlots c)).w (clusterIx c) 0x69
        (d.acqEntries c)
      let d3 := addGrant 4 (acqOwner c) (d.captureDemand (d.acqQueue c) (d.acqSlots c)) (d2.setAcq c Acq.init)
      settleTile (c / 4) (setAcqState c acqAdmitting d3)

/-- The table-period boundary at which a unit's grant comes into force: it starts forming sample sets (R242). -/
def acqBoundary (c : Nat) (d : Device) : Device :=
  if d.acqState c = acqAdmitting then setAcqState c acqCreditWait d else d

/-! ## Writing a capture (R239, R241) -/

/-- An entry of the running capture goes to the queue for a credit that the unit holds. -/
def putEntry (c entry : Nat) (eop : Bool) (d : Device) : Device :=
  let x := d.acqOf c
  enqueueEntry (d.acqQueue c) (leBytes 64 entry) eop (some (acqOwner c)) (d.setAcq c { x with used := x.used + 1 })

/-- Four sample records packed to an entry (R239). -/
def packRecords (l : List Nat) : Nat := l.foldr (fun r a => r + a * 2 ^ 128) 0

/-- A sample record joins the open entry, which is written when it is full. -/
def putSample (c rec_ : Nat) (d : Device) : Device :=
  let x := d.acqOf c
  let l := x.open_ ++ [rec_]
  if l.length < 4 then d.setAcq c { x with open_ := l }
  else putEntry c (packRecords l) false (d.setAcq c { x with open_ := [] })

/-- The last sample entry is closed with NONE records. -/
def closeSamples (c : Nat) (d : Device) : Device :=
  let x := d.acqOf c
  if x.open_.isEmpty then d else putEntry c (packRecords x.open_) false (d.setAcq c { x with open_ := [] })

/-- The bin of a value of input `i` (R240). -/
def acqBin (d : Device) (c i : Nat) (v : Int) : Nat :=
  let s := d.act (clusterIx c) 0x5B
  if fld s (24 * i) 1 = 0 then uniformBin (sx 64 (fld s (24 * i + 8) 8)) (sx 64 (fld s (24 * i + 16) 8)) v
  else tableBin (tableEdges (d.act (clusterIx c) 0x5C)) v

/-- One record of the capture: reduced, and written if sample records are (R239, R240). -/
def takeRecord (c : Nat) (index : Int) (p : Nat × Sample) (d : Device) : Device :=
  let x := d.acqOf c
  let r := Cells.read Reduction.init p.1 x.red
  let r' := if p.2.valid then r.add p.2.value (d.acqBin c p.1 p.2.value) else { r with invalid := r.invalid + 1 }
  let d1 := d.setAcq c { x with red := Cells.write Reduction.init p.1 r' x.red }
  if d.act (clusterIx c) 0x59 = 1 then putSample c (sampleRecord p.1 p.2 index) d1 else d1

def takeSet (c : Nat) (index : Int) : List (Nat × Sample) → Device → Device
  | [], d => d
  | p :: ps, d => takeSet c index ps (takeRecord c index p d)

/-- The pre-trigger sample sets, oldest first, at rising negative indices. -/
def takePre (c : Nat) : List (List (Nat × Sample)) → Device → Device
  | [], d => d
  | l :: ls, d => takePre c ls (takeSet c (-((ls.length : Int) + 1)) l d)

/-- The HEADER entry (R239); `pre` sample sets precede the trigger. -/
def headerRecord (d : Device) (c pre : Nat) (forced : Bool) : Nat :=
  let x := d.acqOf c
  let k := (d.acqInputs c).length
  let per := if d.acqTmu c then 1 else k
  let short := decide (pre < d.acqP c)
  let inputs := (List.range 16).foldl (fun a i =>
    a + (inputKind (d.acqInput c i) % 16 * 16 + inputRes (d.acqInput c i)) * 2 ^ (8 * i)) 0
  0x10 + c * 2 ^ 8 + k * 2 ^ 16 + ((if forced then 1 else 0) + (if short then 2 else 0)) * 2 ^ 24 +
    x.capture % 2 ^ 32 * 2 ^ 32 + d.ringNs % 2 ^ 64 * 2 ^ 64 + d.cycle % 2 ^ 64 * 2 ^ 128 + pre * 2 ^ 192 +
    d.acqQ c * 2 ^ 224 + d.act (clusterIx c) 0x52 * 2 ^ 256 +
    (if d.acqTmu c then 255 else d.act (clusterIx c) 0x51) * 2 ^ 264 +
    (if d.act (clusterIx c) 0x59 = 1 then (pre + d.acqQ c) * per % 2 ^ 32 else 0) * 2 ^ 288 + inputs * 2 ^ 320

/-- The capture has its last sample set: its open entry is closed and its reductions are to be written. -/
def startWriting (c : Nat) (d : Device) : Device := setAcqState c acqWriting (closeSamples c d)

/-- A trigger is accepted in READY (R236 to R239, R245). -/
def acceptTrigger (c : Nat) (forced : Bool) (d : Device) : Device :=
  let x := d.acqOf c
  let pre := x.pre
  let d1 := d.setAcq c { x with index := 0, red := [], used := 0, forced := forced, forcing := false, disarmed := false, open_ := [] }
  let d2 := takePre c pre (putEntry c (d1.headerRecord c pre.length forced) false d1)
  let d3 := (setAcqState c acqCapturing d2).w (clusterIx c) 0x6A d.ringNs
  let d4 := if bit (d.act (clusterIx c) 0x5D) 0 then d3.raise (clusterSource c 3) else d3
  let d5 := if forced then d4.addWrap (clusterIx c) 0x66 4 1 else d4
  if d.acqQ c = 0 then startWriting c d5 else d5

/-- A trigger reaches the unit (R238): accepted in READY, missed in any other armed state. -/
def acqTrigger (c : Nat) (d : Device) : Device :=
  if d.acqState c = acqReady then acceptTrigger c false d
  else if d.acqArmed c then d.addSat (clusterIx c) 0x65 4 1
  else d

/-- The triggers that a source and parameter select (R236). -/
def sourceTrigger (source param c : Nat) (d : Device) : Device :=
  if d.act (clusterIx c) 0x52 = source ∧ d.act (clusterIx c) 0x53 = param then acqTrigger c d else d

/-- A rising edge of trigger line `l` at every unit (R236). -/
def lineTrigger (l : Nat) (d : Device) : Device := each (sourceTrigger 2 l) (List.range 32) d

/-- CAPT with ACQ of site `s` commits (R143, R236). -/
def siteTrigger (s : Nat) (d : Device) : Device :=
  each (sourceTrigger 1 s) ((List.range 32).filter fun c => (d.siteQuads s).any fun q => q / 4 == c) d

/-! ## Sample sets (R235, R236, R238) -/

/-- What the converter of an ADC input gave in the interval that ends now (R234, R235): the last valid sample, for DPS-Q the
sum of the charge increments. A discarded sample gives none (R84, R222). -/
def adcValue (d : Device) (c v : Nat) : Option Int :=
  let k := inputKind v
  if k = 1 then (d.convOf (inputChan c v)).volt
  else if k = 2 then (d.convOf (inputChan c v)).cur
  else if k = 3 then (d.dpsConvOf (inputDps c v)).volt
  else if k = 4 then (d.dpsConvOf (inputDps c v)).cur
  else some (d.dpsOf (inputDps c v)).gridSum

/-- A clamp was engaged during the sample (R239). -/
def adcClamp (d : Device) (c v : Nat) : Bool :=
  if inputKind v ≤ 2 then (d.convOf (inputChan c v)).clamp else (d.dpsConvOf (inputDps c v)).clamp

/-- The record that the unit forms for an ADC input (R235). -/
def adcSample (d : Device) (c i : Nat) : Nat × Sample :=
  let v := d.acqInput c i
  match d.adcValue c v with
  | some x => if d.adcUnfit c v then (i, ⟨false, 0, d.adcClamp c v, 0⟩) else (i, ⟨true, x, d.adcClamp c v, 0⟩)
  | none => (i, ⟨false, 0, d.adcClamp c v, 0⟩)

/-- A new grid interval begins in cluster `c` (R235). -/
def newInterval (c : Nat) (d : Device) : Device :=
  let chans (e : Device) : Device := each (fun i x => x.setConv (16 * c + i) Converted.init) (List.range 16) e
  each (fun i e =>
    let k := 2 * c + i
    (e.setDpsConv k Converted.init).setDps k { e.dpsOf k with gridSum := 0 }) [0, 1] (chans d)

/-- Whether the valid sample `v` after `p` crosses the trigger level (R236). -/
def crosses (d : Device) (c : Nat) (p v : Int) : Bool :=
  let l := sx 64 (d.act (clusterIx c) 0x54)
  if bit (d.act (clusterIx c) 0x53) 8 then decide (l < p) && decide (v ≤ l) else decide (p < l) && decide (l ≤ v)

/-- The LEVEL trigger judged on a sample set: the last valid sample of the input is kept (R236). -/
def levelTrigger (c : Nat) (l : List (Nat × Sample)) (d : Device) : Device :=
  let x := d.acqOf c
  if d.act (clusterIx c) 0x52 ≠ 3 then d
  else match l.find? fun p => p.1 == d.act (clusterIx c) 0x53 % 16 && p.2.valid with
    | none => d
    | some p =>
      let d1 := d.setAcq c { x with previous := some p.2.value }
      match x.previous with
      | none => d1
      | some v => if d.crosses c v p.2.value then acqTrigger c d1 else d1

/-- A trigger that the auto timeout forces comes with the sample set, if none has been accepted before it (R237). -/
def forceTrigger (c : Nat) (d : Device) : Device :=
  if (d.acqOf c).forcing && d.acqState c == acqReady then acceptTrigger c true d else d

/-- A sample set in an armed unit: it joins the pre-trigger sets, or the running capture, which ends at Q (R238). -/
def formSet (c : Nat) (l : List (Nat × Sample)) (d : Device) : Device :=
  let d1 := forceTrigger c (levelTrigger c l d)
  let x := d1.acqOf c
  let d2 := if d1.acqState c = acqCapturing then takeSet c x.index l d1 else d1
  let y := d2.acqOf c
  let pre := y.pre ++ [l]
  let d3 := d2.setAcq c { y with pre := pre.drop (pre.length - d.acqP c), index := x.index + 1 }
  if d1.acqState c = acqCapturing ∧ d.acqQ c ≤ x.index + 1 then startWriting c d3 else d3

/-- A grid instant, or a TMU result that the unit has been offered, forms a sample set (R235). A grid instant ends the interval
whether or not the unit is armed. -/
def sampleSetOp (c : Nat) (d : Device) : Device :=
  let x := d.acqOf c
  let forms := d.acqArmed c && d.acqState c != acqAdmitting
  if d.acqTmu c then
    match x.offers with
    | [] => d
    | p :: rest => if forms then formSet c [p] (d.setAcq c { x with offers := rest }) else d
  else if forms then formSet c ((d.acqInputs c).map (d.adcSample c)) (newInterval c d)
  else newInterval c d

/-- A TMU result is offered to the unit of its cluster, which takes it as a sample set when it is armed and names the TMU
(R117, R235): the interval in fs, or in FREQUENCY mode the frequency in mHz rounded toward zero. -/
def offerTmu (n rec_ : Nat) (d : Device) : Device :=
  let c := n / 16
  let x := d.acqOf c
  let status := fld rec_ 0 1
  let span := fld rec_ 8 8
  let v : Nat := if fld rec_ 1 1 = 2 then (if span = 0 then 0 else (fld rec_ 16 8 - 1) * 10 ^ 18 / span) else span
  let s : Sample := ⟨status == 0, if status = 0 then (v : Int) else 0, false, BitVec.ofNat 8 status⟩
  let mine := (d.acqInputs c).filter fun i => isTmuKind (inputKind (d.acqInput c i)) && inputChan c (d.acqInput c i) == n
  if d.acqArmed c && d.acqState c != acqAdmitting then
    d.setAcq c { x with offers := x.offers ++ mine.map fun i => (i, s) }
  else d

/-! ## The states around a capture (R237, R241) -/

/-- AUTO with a timeout of 0 forces a trigger as soon as the unit is READY (R237). -/
def enterReady (c : Nat) (d : Device) : Device :=
  let d1 := (setAcqState c acqReady d).setAcq c { d.acqOf c with readySince := d.cycle, forcing := false }
  if d.act (clusterIx c) 0x40 = 2 ∧ d.act (clusterIx c) 0x58 = 0 then acceptTrigger c true d1 else d1

/-- The unit holds credits for E entries (R241, R277). -/
def acqReadyOp (c : Nat) (d : Device) : Device :=
  if d.acqState c = acqCreditWait ∧ d.canReserve (d.acqQueue c) (d.acqEntries c) = true then
    enterReady c (reserve (d.acqQueue c) (d.acqEntries c) d)
  else d

/-- No trigger came within the auto timeout of READY: one is forced at the next sample set (R237). -/
def autoTimeoutOp (c : Nat) (d : Device) : Device :=
  if d.acqState c = acqReady ∧ d.act (clusterIx c) 0x40 = 2 ∧
      (d.acqOf c).readySince + 1000 * d.act (clusterIx c) 0x58 ≤ d.cycle then d.setAcq c { d.acqOf c with forcing := true }
  else d

/-- The unit ends its arm in state `v`: its grant is released (R242) and its tile's floor condition goes. -/
def endArm (c v : Nat) (d : Device) : Device :=
  settleTile (queueTile (d.acqQueue c)) (settleTile (c / 4) (setAcqState c v (releaseGrants (acqOwner c) d)))

/-- The reductions and histograms of the inputs, the last entry an EOP (R239). -/
def writeReductions (c : Nat) : List Nat → Device → Device
  | [], d => d
  | i :: is, d =>
    let x := d.acqOf c
    let r := Cells.read Reduction.init i x.red
    let rec_ := reductionRecord i r x.disarmed x.forced x.capture
    let d1 := putEntry c rec_ false (d.w (clusterIx c) (0x70 + i) rec_)
    let d2 := putEntry c (histRecord r 0) false d1
    let d3 := putEntry c (histRecord r 1) false d2
    let d4 := putEntry c (histRecord r 2) false d3
    writeReductions c is (putEntry c (histRecord r 3) is.isEmpty d4)

/-- The captures of this arm have been made (R237). -/
def armSpent (d : Device) (c : Nat) : Bool :=
  let count := d.act (clusterIx c) 0x57
  d.act (clusterIx c) 0x40 == 1 || (count != 0 && decide (count ≤ d.o (clusterIx c) 0x64))

/-- A capture's last entry is written (R239, R241, R245): unused credits go back, and the unit waits for credits again or
ends its arm. -/
def captureCompleteOp (c : Nat) (d : Device) : Device :=
  if d.acqState c ≠ acqWriting then d
  else
    let d1 := writeReductions c (d.acqInputs c) d
    let x := d1.acqOf c
    let d2 := returnCredits (d.acqQueue c) (d.acqEntries c - x.used) d1
    let d3 := (d2.addWrap (clusterIx c) 0x64 4 1).setAcq c { d2.acqOf c with capture := x.capture + 1, used := 0, red := [] }
    let d4 := if bit (d.act (clusterIx c) 0x5D) 1 then d3.raise (clusterSource c 3) else d3
    if x.disarmed then endArm c acqIdle d4
    else if d4.armSpent c then endArm c acqDone d4
    else setAcqState c acqCreditWait d4

/-- A disarm (R241, R243): a running capture is closed and reduced, and unused credits go back. -/
def disarmAcq (c : Nat) (d : Device) : Device :=
  let st := d.acqState c
  if st = acqCapturing ∨ st = acqWriting then
    let d1 := d.setAcq c { d.acqOf c with disarmed := true }
    if st = acqCapturing then startWriting c d1 else d1
  else if st = acqReady then endArm c acqIdle (returnCredits (d.acqQueue c) (d.acqEntries c) d)
  else if d.acqArmed c then endArm c acqIdle d
  else d

end Device

/-! ## Meanings -/

open Device

/-- ACQUISITION_COMMIT (R244). -/
def execAcquisitionCommit (p : Port) (c : Cluster) (v : Byte) (s : State) : Host.Outcome State Fault Refusal :=
  nextDev s (hostWrite s.dev p (clusterIx c.val) 0x5E v.toNat false (acqCommitOp c.val))

/-- ACQUISITION_ARM (R243). -/
def execAcquisitionArm (p : Port) (c : Cluster) (s : State) : Host.Outcome State Fault Refusal :=
  nextDev s (hostWrite s.dev p (clusterIx c.val) 0x61 1 false (armAcq c.val))

/-- ACQUISITION_DISARM (R241, R243). -/
def execAcquisitionDisarm (p : Port) (c : Cluster) (s : State) : Host.Outcome State Fault Refusal :=
  nextDev s (hostWrite s.dev p (clusterIx c.val) 0x61 2 false (disarmAcq c.val))

/-- HOST_TRIGGER (R236). -/
def execHostTrigger (p : Port) (c : Cluster) (v : Byte) (s : State) : Host.Outcome State Fault Refusal :=
  nextDev s (hostWrite s.dev p (clusterIx c.val) 0x62 v.toNat false (sourceTrigger 0 0 c.val))

/-- SAMPLE_SET (R235, R236, R238). -/
def execSampleSet (c : Cluster) (s : State) : Host.Outcome State Fault Refusal :=
  nextDev s (sampleSetOp c.val s.dev)

/-- AUTO_TIMEOUT (R237). -/
def execAutoTimeout (c : Cluster) (s : State) : Host.Outcome State Fault Refusal := nextDev s (autoTimeoutOp c.val s.dev)

/-- ACQ_READY (R241). -/
def execAcqReady (c : Cluster) (s : State) : Host.Outcome State Fault Refusal := nextDev s (acqReadyOp c.val s.dev)

/-- CAPTURE_COMPLETE (R239, R241). -/
def execCaptureComplete (c : Cluster) (s : State) : Host.Outcome State Fault Refusal :=
  nextDev s (captureCompleteOp c.val s.dev)

end Sys2Proof.Machine
end

