-- ==== Sys2Proof/Machine/Tmu.lean ====
section
/-!
DEFINITION. The time measurement unit (R107 to R117).
-/
namespace Sys2Proof.Machine

/-- TMU states (0x2000+n.2B). -/
def tmuIdle : Nat := 0
def tmuArmed : Nat := 1
def tmuStarted : Nat := 2
def tmuConverting : Nat := 3
def tmuDone : Nat := 4
def tmuRefused : Nat := 5
def tmuHeld : Nat := 6

/-- The 32-byte result record (R117). -/
def tmuRecord (status mode seq interval edges coarse startFine stopFine : Nat) : Nat :=
  status + mode * 2 ^ 8 + (seq % 2 ^ 32) * 2 ^ 32 + (interval % 2 ^ 64) * 2 ^ 64 + (edges % 2 ^ 64) * 2 ^ 128 +
    (coarse % 2 ^ 32) * 2 ^ 192 + (startFine % 2 ^ 16) * 2 ^ 224 + (stopFine % 2 ^ 16) * 2 ^ 240

/-- An edge's fine code as a mode and source give it (R110, R117): multiples of 4 in COMPAT, 0 on a trigger line. -/
def fineCode (mode source fine : Nat) : Nat := if source = 2 then 0 else if mode = 1 then fine / 4 * 4 else fine

/-- The channel that a pin source names (R107): its own, or its neighbour. -/
def sourceChan (n source : Nat) : Nat := if source = 1 then (if n % 2 = 0 then n + 1 else n - 1) else n

/-- The re-arm time of a mode in ns (R110). -/
def rearmTime (mode : Nat) : Nat := if mode = 1 then 1000 else 20

namespace Device

def tmuState (d : Device) (n : Nat) : Nat := d.o (chanIx n) 0x2B
def setTmuState (n v : Nat) (d : Device) : Device := d.w (chanIx n) 0x2B v

/-- A batch is in progress. -/
def tmuBusy (d : Device) (n : Nat) : Bool := decide (1 ≤ d.tmuState n) && decide (d.tmuState n ≤ 3)

/-- The batch ends (R115): DONE, and the tile's batch-done source. -/
def batchDone (n : Nat) (d : Device) : Device :=
  settleTile (n / 64) ((setTmuState n tmuDone d).raise (tileSource (n / 64) 6))

/-! ## Comparators and qualifying edges (R107 to R109) -/

/-- The threshold of comparator `select` of channel `m` in nV (R107, R108): VOH and VOL as the level outputs stand, M0 and M1 as
last loaded; none for a measure comparator that no arm has loaded. -/
def threshold (d : Device) (m select : Nat) : Option Int :=
  if select ≤ 1 then some (d.outputNow (m / 4) (6 * (m % 4) + 3 + select) (1000 * d.cycle))
  else if (d.tmuOf m).loaded then some (10000 * (if select = 2 then (d.tmuOf m).level0 else (d.tmuOf m).level1))
  else none

/-- A pin's edge qualifies for an input of TMU `n`: it crosses the threshold of the comparator that the input selects, in the
direction of its slope. -/
def qualifies (d : Device) (n : Nat) (i : TmuInput) (x : PinEdge) : Bool :=
  decide (i.source ≤ 1) && x.chan.val == sourceChan n i.source &&
  (match d.threshold x.chan.val i.select with
   | some v => decide (v < x.before) == (i.slope == 1) && decide (v < x.after) == (i.slope == 0)
   | none => false)

/-! ## Results (R111, R115 to R117) -/

/-- A result is written, counted and offered to the acquisition unit and to a measuring step (R117, R195). -/
def tmuResultWritten (n rec_ freq : Nat) (d : Device) : Device :=
  let x := d.tmuOf n
  let d1 := (((d.w (chanIx n) 0x2C rec_).w (chanIx n) 0x2F freq).addWrap (chanIx n) 0x2D 4 1).setTmu n { x with seq := x.seq + 1 }
  tmuSampled n rec_ (offerTmu n rec_ d1)

/-- A result without a stop edge (R111, R116): the interval is 0; the coarse and stop fields are not stated. -/
def tmuNoStop (n : Nat) (m : TmuDone) (d : Device) : Device :=
  let x := d.tmuOf n
  let startFine := match m.start with
    | some e => e.2
    | none => Config.unstated (d.freeCtr + 2)
  let r := tmuRecord m.status x.mode x.seq 0 (if x.mode = 2 then m.edges else 0) (Config.unstated d.freeCtr) startFine
    (Config.unstated (d.freeCtr + 1))
  tmuResultWritten n r 0 d.fresh.fresh.fresh

/-- The measurement under way as it stands, with a status. -/
def underWay (d : Device) (n status : Nat) : TmuDone :=
  let x := d.tmuOf n
  ⟨status, x.start, x.first, x.last, x.edges, x.fast⟩

/-- The state that the object shows (R117): a batch with measurements left or converting goes on, else it is DONE (R115). -/
def tmuSettle (n : Nat) (d : Device) : Device :=
  let x := d.tmuOf n
  if x.start.isSome then setTmuState n tmuStarted d
  else if !(x.converting.isEmpty) then setTmuState n tmuConverting d
  else if x.left = 0 then batchDone n d
  else setTmuState n tmuArmed d

/-- The measurement under way reaches its end in `cycle` with a status: the next of the batch re-arms (R110, R115). -/
def tmuEnded (n status cycle : Nat) (d : Device) : Device :=
  let x := d.tmuOf n
  d.setTmu n { x with converting := x.converting ++ [d.underWay n status], left := x.left - 1, start := none, first := none,
                      last := none, edges := 0, fast := false, isReady := false, ready := cycle + rearmTime x.mode }

/-- Every measurement that the abort finds without a result is reported as ABORTED: those that convert, and the one under way,
which an ARMED unit without conversions has too (R114, R116; log entry 103). -/
def tmuAbortAll (n : Nat) (d : Device) : Device :=
  let x := d.tmuOf n
  let running := if x.start.isSome || x.converting.isEmpty then [d.underWay n 3] else []
  let all := x.converting.map (fun m => { m with status := 3 }) ++ running
  let d1 := all.foldl (fun e m => tmuNoStop n m e) d
  d1.setTmu n { d1.tmuOf n with converting := [], start := none, first := none, last := none, edges := 0, fast := false,
                                isReady := false }

/-- Ends the running measurement as ABORTED and the batch with it (R116). -/
def abortTmu (n : Nat) (d : Device) : Device :=
  if d.tmuBusy n then
    let d1 := tmuAbortAll n d
    batchDone n (d1.setTmu n { d1.tmuOf n with left := 0 })
  else d

/-! ## Arming (R113 to R116) -/

/-- The reason to refuse an arm, 0 for none (R114). Of several the lowest is written, and reason 3 looks at the channel's own measure
levels only, also where an input uses the neighbour's (DESIGN CHOICE, log entry 103). -/
def tmuRefusal (d : Device) (n : Nat) : Nat :=
  let o (sub : Nat) : Nat := d.o (chanIx n) sub
  let bad (sub : Nat) : Bool := decide (d.oi (chanIx n) sub < -150000) || decide (600000 < d.oi (chanIx n) sub)
  if o 0x1B ≤ 1 ∧ o 0x24 = 0 then 1
  else if o 0x1B = 2 ∧ o 0x28 < 1000 then 2
  else if bad 0x25 || bad 0x26 then 3
  else if (o 0x1C == 2 && decide (31 < o 0x1F)) || (o 0x20 == 2 && decide (31 < o 0x23)) then 4
  else if 3 ≤ d.powerState (n / 64) then 5
  else if 2 < o 0x1B then 6
  else 0

/-- The channels whose measure comparators an arm of TMU `n` loads: its own, and its neighbour's where an input uses it (R108). -/
def measureChans (d : Device) (n : Nat) : List Nat :=
  if d.o (chanIx n) 0x1C = 1 ∨ d.o (chanIx n) 0x20 = 1 then [n, sourceChan n 1] else [n]

/-- A measure level of channel `m` has changed since it was last loaded. Where nothing has loaded it yet, after reset, it counts as
changed, and the TMU is ready after 1 µs (R113; DESIGN CHOICE, log entry 103). -/
def levelsMoved (d : Device) (m : Nat) : Bool :=
  let x := d.tmuOf m
  !x.loaded || x.level0 != d.oi (chanIx m) 0x25 || x.level1 != d.oi (chanIx m) 0x26

/-- The measure levels of channel `m` are loaded (R108). -/
def loadLevels (m : Nat) (d : Device) : Device :=
  d.setTmu m { d.tmuOf m with level0 := d.oi (chanIx m) 0x25, level1 := d.oi (chanIx m) 0x26, loaded := true }

/-- The whole configuration is latched and a batch of `count` starts (R113, R115). -/
def startBatch (n count : Nat) (d : Device) : Device :=
  let o (sub : Nat) : Nat := d.o (chanIx n) sub
  let moved := (d.measureChans n).any d.levelsMoved
  let d0 := each loadLevels (d.measureChans n) d
  let x := d0.tmuOf n
  let x' : Tmu :=
    { Tmu.init with
      level0 := x.level0, level1 := x.level1, loaded := x.loaded, mode := o 0x1B,
      startIn := ⟨o 0x1C, o 0x1D, o 0x1E, o 0x1F⟩, stopIn := ⟨o 0x20, o 0x21, o 0x22, o 0x23⟩, stopCount := o 0x24,
      timeout := o 0x27, gate := o 0x28, left := count, ready := d.cycle + (if moved then 1000 else 20) }
  let d1 := ((d0.setTmu n x').w (chanIx n) 0x2D 0).w (chanIx n) 0x30 0
  if count = 0 then batchDone n d1 else settleTile (n / 64) (setTmuState n tmuArmed d1)

/-- An arm takes effect: refused, or started (R114). -/
def armNow (n count : Nat) (d : Device) : Device :=
  let r := d.tmuRefusal n
  if r ≠ 0 then settleTile (n / 64) (setTmuState n tmuRefused (d.w (chanIx n) 0x30 r)) else startBatch n count d

/-- An arm (R113 to R115): held while the tile calibrates, whatever the configuration; a running measurement ends ABORTED. Where the
new arm is then refused, the state reads REFUSED and the batch that ended raises no batch-done event (DESIGN CHOICE, log entry
103). -/
def armBatch (n count : Nat) (d : Device) : Device :=
  if d.calibrating (n / 64) then setTmuState n tmuHeld (d.setTmu n { d.tmuOf n with heldCount := count })
  else armNow n count (if d.tmuBusy n then tmuAbortAll n d else d)

/-- An arm with the batch count of the channel's configuration. -/
def armTmu (n : Nat) (d : Device) : Device := armBatch n (d.o (chanIx n) 0x29) d

/-- A held arm takes effect as the calibration ends (R114), with the batch count of its arrival and the rest of the configuration as it
then stands (DESIGN CHOICE, log entry 103). -/
def armHeld (n : Nat) (d : Device) : Device := if d.tmuState n = tmuHeld then armNow n (d.tmuOf n).heldCount d else d

/-- A disarm (R116); a held arm is dropped. -/
def disarmTmu (n : Nat) (d : Device) : Device :=
  if d.tmuState n = tmuHeld then setTmuState n tmuIdle d else abortTmu n d

/-! ## A measurement (R109 to R112) -/

/-- A TMU with measurements left in its batch becomes ready for a start edge when its time has come, also while the one before
converts (R110, R113). -/
def tmuReadyOp (n : Nat) (d : Device) : Device :=
  let x := d.tmuOf n
  if d.tmuBusy n && x.start.isNone && decide (0 < x.left) && decide (x.ready ≤ d.cycle) then
    d.setTmu n { x with isReady := true }
  else d

/-- The instant of an edge in the present cycle, in half picoseconds. -/
def edgeAt (d : Device) (fine : Nat) : Nat := 2000 * d.cycle + fine

/-- A qualifying start edge (R109, R112); before the TMU is ready it is not accepted. -/
def takeStart (n fine : Nat) (d : Device) : Device :=
  let x := d.tmuOf n
  if x.isReady && x.start.isNone then
    setTmuState n tmuStarted (d.setTmu n
      { x with start := some (d.cycle, fineCode x.mode x.startIn.source fine), startAt := d.edgeAt fine, isReady := false,
               edges := 0, first := none, last := none })
  else d

/-- Two counted edges closer than a period of 3.0 GHz, in half picoseconds (R112). -/
def tooFast (a b : Nat × Nat) : Bool := decide (3 * (2000 * b.1 + b.2) < 3 * (2000 * a.1 + a.2) + 2000)

/-- Two inputs name the same comparator, or the same trigger line, and slope (R107, R109): the fields that their source does not use
count for nothing. -/
def TmuInput.same (a b : TmuInput) : Bool :=
  a.source == b.source && a.slope == b.slope && (if a.source = 2 then a.line == b.line else a.select == b.select)

/-- A stop edge counts in an interval mode: after the start edge, which is no stop edge where both inputs name one comparator
and slope; one less than 60 ps after it may or may not count (R109). In FREQUENCY mode every edge from the opening on counts
(R112). -/
def stopCounts (d : Device) (x : Tmu) (fine : Nat) : Bool :=
  let t := d.edgeAt fine
  if x.mode = 2 then decide (x.startAt ≤ t)
  else if t < x.startAt ∨ (t = x.startAt ∧ TmuInput.same x.startIn x.stopIn = true) then false
  else if t < x.startAt + 120 then Config.nearStop d.freeCtr
  else true

/-- A qualifying stop edge is counted; the N-th ends an interval measurement (R109, R112). -/
def takeStop (n fine : Nat) (d : Device) : Device :=
  let x := d.tmuOf n
  if x.start.isNone || !(d.stopCounts x fine) then d
  else
    let e := (d.cycle, fineCode x.mode x.stopIn.source fine)
    let fast := x.fast || (match x.last with
      | some l => tooFast l e
      | none => false)
    let d1 := d.fresh.setTmu n { x with edges := x.edges + 1, last := some e, fast := fast, first := x.first.orElse fun _ => some e }
    if x.mode ≠ 2 ∧ x.stopCount ≤ x.edges + 1 then tmuSettle n (tmuEnded n 0 d.cycle d1) else d1

/-- The TMU waits for a falling edge of a trigger line to start it. Such an edge stands at the beginning of its cycle and is known at
the cycle's end, when no one has asserted the line (R107, R296). -/
def awaitsFall (x : Tmu) : Bool := x.isReady && x.start.isNone && x.startIn.source == 2 && x.startIn.slope == 1

/-- A qualifying stop edge: it is kept where the cycle may yet turn out to have begun with the start edge. -/
def stopEdge (n fine : Nat) (d : Device) : Device :=
  let x := d.tmuOf n
  if awaitsFall x then
    d.setTmu n { x with early := x.early.filter (fun e => e.1 == d.cycle) ++ [(d.cycle, fine)] }
  else takeStop n fine d

/-- The stop edges that the present cycle has kept are counted from the start edge that it began with. -/
def replayStops (n : Nat) (d : Device) : Device :=
  let x := d.tmuOf n
  each (takeStop n) ((x.early.filter fun e => e.1 == d.cycle).map Prod.snd) (d.setTmu n { x with early := [] })

/-- An edge of a pin at the start input of TMU `n`. -/
def tmuStartOp (n : Nat) (x : PinEdge) (d : Device) : Device :=
  if d.qualifies n (d.tmuOf n).startIn x then takeStart n x.fine.val d else d

/-- An edge of a pin at the stop input of TMU `n`. -/
def tmuStopOp (n : Nat) (x : PinEdge) (d : Device) : Device :=
  if d.qualifies n (d.tmuOf n).stopIn x then stopEdge n x.fine.val d else d

/-- An input takes an edge of trigger line `l`, on a 1.0 GHz cycle edge (R107). -/
def TmuInput.takesLine (i : TmuInput) (l : Nat) (rising : Bool) : Bool :=
  i.source == 2 && i.line == l && (i.slope == 0) == rising

/-- An edge of trigger line `l` at one TMU. -/
def tmuLineAt (l : Nat) (rising : Bool) (n : Nat) (d : Device) : Device :=
  let x := d.tmuOf n
  if d.tmuBusy n then
    let d1 := if TmuInput.takesLine x.startIn l rising then replayStops n (takeStart n 0 d) else d
    if TmuInput.takesLine x.stopIn l rising then stopEdge n 0 d1 else d1
  else d

/-- An edge of trigger line `l` at every TMU (R107, R296). -/
def tmuLine (l : Nat) (rising : Bool) (d : Device) : Device := each (tmuLineAt l rising) (d.pins.tmu.map Prod.fst) d

/-- The gate closes (R112): the measurement converts. -/
def tmuGateOp (n : Nat) (d : Device) : Device :=
  let x := d.tmuOf n
  match x.start with
  | none => d
  | some b =>
    if x.mode = 2 ∧ b.1 + x.gate ≤ d.cycle then
      tmuSettle n (tmuEnded n (if x.edges < 2 then 4 else 0) ((x.last.map Prod.fst).getD d.cycle) d)
    else d

/-- An interval measurement with no stop edge ends after `limit` ns with `status` (R111): it is reported behind the results
that still convert. -/
def tmuExpire (n status limit : Nat) (d : Device) : Device :=
  let x := d.tmuOf n
  match x.start with
  | none => d
  | some b =>
    if x.mode ≠ 2 ∧ limit ≠ 0 ∧ b.1 + limit ≤ d.cycle then
      let d1 := tmuEnded n status d.cycle d
      if x.converting.isEmpty then
        tmuSettle n (tmuNoStop n (d.underWay n status) (d1.setTmu n { d1.tmuOf n with converting := [] }))
      else tmuSettle n d1
    else d

/-- The fixture delay of an input's channel in 0.25 ps; a trigger line has none (R107, R117). -/
def inputDelay (d : Device) (n source : Nat) : Nat := if source = 2 then 0 else d.fixtureCompare (sourceChan n source)

/-- The place in fs of a fine code within its nanosecond: by the calibrated bins of the channel's TMU, and before its first acceptance
in the nominal steps of 0.5 ps (R117, R356, R365). A trigger line's edge stands at the beginning of its nanosecond. -/
def binPlace (d : Device) (n mode source fine : Nat) : Int :=
  if source = 2 then 0
  else match d.coefsOf (n / 64) (1 + n % 64) with
    | some c => c.edges.getD (if mode = 1 then 2000 + fine / 4 else fine) (500 * fine)
    | none => 500 * fine

/-- The span in fs between two edges of TMU `n` at the balls, each from its source (R117). -/
def spanFs (d : Device) (n first last : Nat) (a b : Nat × Nat) : Int :=
  let mode := (d.tmuOf n).mode
  1000000 * ((b.1 : Int) - a.1) + (d.binPlace n mode last b.2 - d.binPlace n mode first a.2)

/-- The corrected interval of an interval measurement in fs (R117). -/
def intervalFs (d : Device) (n : Nat) (a b : Nat × Nat) : Int :=
  let x := d.tmuOf n
  d.spanFs n x.startIn.source x.stopIn.source a b + 250 * (d.inputDelay n x.startIn.source : Int) - 250 * (d.inputDelay n x.stopIn.source : Int)

/-- The record of a converted measurement (R111, R112, R117). -/
def tmuConverted (n : Nat) (m : TmuDone) (d : Device) : Device :=
  let x := d.tmuOf n
  if m.status = 1 ∨ m.status = 2 then tmuNoStop n m d
  else if x.mode = 2 then
    let count := if m.fast then Config.edgeCount d.freeCtr else m.edges
    let d0 := if m.fast then d.fresh else d
    match m.first, m.last with
    | some a, some b =>
      if m.status = 0 then
        let fs := ux 64 (d.spanFs n x.stopIn.source x.stopIn.source a b)
        tmuResultWritten n (tmuRecord 0 2 x.seq fs count (b.1 - a.1) a.2 b.2) (f32 ((count - 1) * 1000000000000000) fs) d0
      else
        tmuResultWritten n
          (tmuRecord 4 2 x.seq 0 count (Config.unstated d0.freeCtr) a.2 (Config.unstated (d0.freeCtr + 1))) 0 d0.fresh.fresh
    | _, _ =>
      tmuResultWritten n
        (tmuRecord 4 2 x.seq 0 0 (Config.unstated d.freeCtr) (Config.unstated (d.freeCtr + 1)) (Config.unstated (d.freeCtr + 2)))
        0 d.fresh.fresh.fresh
  else
    match m.start, m.last with
    | some a, some b =>
      tmuResultWritten n (tmuRecord 0 x.mode x.seq (ux 64 (d.intervalFs n a b)) 0 (b.1 - a.1) a.2 b.2) 0 d
    | _, _ => d

/-- The oldest conversion completes (R117): results come in the order of their stop edges. -/
def tmuResultOp (n : Nat) (d : Device) : Device :=
  let x := d.tmuOf n
  match x.converting with
  | [] => d
  | m :: rest => tmuSettle n (tmuConverted n m (d.setTmu n { x with converting := rest }))

end Device

/-! ## Meanings -/

open Device

/-- TMU_ARM (R113). -/
def execTmuArm (p : Port) (n : Chan) (s : State) : Host.Outcome State Fault Refusal :=
  nextDev s (hostWrite s.dev p (chanIx n.val) 0x2A 1 false (armTmu n.val))

/-- TMU_DISARM (R116). -/
def execTmuDisarm (p : Port) (n : Chan) (s : State) : Host.Outcome State Fault Refusal :=
  nextDev s (hostWrite s.dev p (chanIx n.val) 0x2A 2 false (disarmTmu n.val))

/-- TMU_READY (R113). -/
def execTmuReady (n : Chan) (s : State) : Host.Outcome State Fault Refusal := nextDev s (tmuReadyOp n.val s.dev)

/-- TMU_START_EDGE (R107, R109, R112). -/
def execTmuStartEdge (n : Chan) (edge : PinEdge) (s : State) : Host.Outcome State Fault Refusal :=
  nextDev s (tmuStartOp n.val edge s.dev)

/-- TMU_STOP_EDGE (R107, R109, R112). -/
def execTmuStopEdge (n : Chan) (edge : PinEdge) (s : State) : Host.Outcome State Fault Refusal :=
  nextDev s (tmuStopOp n.val edge s.dev)

/-- TMU_GATE_CLOSE (R112). -/
def execTmuGateClose (n : Chan) (s : State) : Host.Outcome State Fault Refusal := nextDev s (tmuGateOp n.val s.dev)

/-- TMU_TIMEOUT (R111). -/
def execTmuTimeout (n : Chan) (s : State) : Host.Outcome State Fault Refusal :=
  nextDev s (tmuExpire n.val 1 (s.dev.tmuOf n.val).timeout s.dev)

/-- TMU_RESULT (R117). -/
def execTmuResult (n : Chan) (s : State) : Host.Outcome State Fault Refusal :=
  nextDev s (tmuResultOp n.val s.dev)

/-- TMU_OVERRANGE (R110, R111). -/
def execTmuOverrange (n : Chan) (s : State) : Host.Outcome State Fault Refusal :=
  nextDev s (tmuExpire n.val 2 4294967295 s.dev)

end Sys2Proof.Machine
end

