-- ==== Sys2Proof/Machine/Lines.lean ====
section
/-!
DEFINITION. Trigger lines and their consumers (R296), event delivery and routing (R294 to R299), condition inputs
(R298), TRIG pins (R300), and snapshot triggers (R302).
-/
namespace Sys2Proof.Machine
namespace Device

/-! ## Trigger lines (R142, R296, R300) -/

/-- A TRIG pin's setup (R300). -/
def trigMode (d : Device) (k : Nat) : Nat := d.o 0x1500 (0x10 + k) % 4
def trigLine (d : Device) (k : Nat) : Nat := bitf (d.o 0x1500 (0x10 + k)) 3 5

/-- The lines asserted in the present cycle by pulses and by the sites that hold them (R142, R296). -/
def linesHeld (d : Device) : Nat := d.event.lineSet.foldl (fun m p => m ||| p.2) d.event.linePulse

/-- The lines asserted in the present cycle (0x1500.08), those of TRIG inputs with them (R300). -/
def linesAsserted (d : Device) : Nat :=
  d.event.trigIn.foldl (fun m p =>
    if p.2.1 ≤ d.cycle ∧ d.cycle ≤ p.2.2 ∧ d.trigMode p.1 = 1 then m ||| 2 ^ d.trigLine p.1 else m) d.linesHeld

/-- The state of condition input `k` of quad `q` (R298). -/
def condInput (d : Device) (q k : Nat) : Bool :=
  let v := fld (d.o (0x1580 + q / 16) (1 + q % 16)) k 1
  if v < 32 then bit d.linesAsserted v
  else if v ≤ 0x37 then bit d.event.ciPulse (24 * (q / 16) + (v - 0x20))
  else false

/-- The state of condition input `k` of quad `q` in the cycle before. -/
def condWas (d : Device) (q k : Nat) : Bool :=
  let v := fld (d.o (0x1580 + q / 16) (1 + q % 16)) k 1
  if v < 32 then bit d.event.linePrev v
  else if v ≤ 0x37 then bit d.event.ciPrev (24 * (q / 16) + (v - 0x20))
  else false

/-- The input rises in the present cycle, or falls with `neg`. -/
def condEdge (d : Device) (q k : Nat) (neg : Bool) : Bool := d.condInput q k == !neg && d.condWas q k == neg

/-- The eight condition inputs of a quad (0x2200+q.6A). -/
def condInputs (d : Device) (q : Nat) : Nat :=
  (List.range 8).foldl (fun a k => a + if d.condInput q k then 2 ^ k else 0) 0

/-- A TRIG output goes active 12 ns, give or take 1 ns, after the present cycle, for a run of its line or for the one cycle of a
pulse of the TRIG mask (R294, R300). -/
def pulsePin (run : Bool) (k : Nat) (d : Device) : Device :=
  if d.trigMode k = 2 then
    let at_ := 1000 * d.cycle + 11000 + (Config.trigDelay d.freeCtr).val + (Config.trigDelay (d.freeCtr + 1)).val
    let x : TrigPulse := { pin := k, start := at_, cycles := if run then 0 else 1, running := run }
    { d.fresh.fresh with event := { d.event with trigOut := d.event.trigOut ++ [x] } }
  else d

/-- The instant in ps at which a pulse ends, by the cycles of its run so far: it lasts as long as the run, and at least 8 ns. -/
def pulseEnd (x : TrigPulse) : Nat := x.start + max 8000 (1000 * x.cycles)

/-- The level of a pin in output mode at `ps`, by its polarity; a pin that is off or an input drives nothing (R300). -/
def trigLevel (d : Device) (k ps : Nat) : Option Bool :=
  if d.trigMode k = 2 then
    let active := d.event.trigOut.any fun x => x.pin == k && decide (x.start ≤ ps) && decide (ps < pulseEnd x)
    some (active != bit (d.o 0x1500 (0x10 + k)) 2)
  else none

/-- A cycle of the lines `now` ends: runs of asserted cycles go on or have ended, and pulses that are over are dropped. -/
def trigTick (d : Device) (now : Nat) : List TrigPulse :=
  (d.event.trigOut.map fun x =>
    if x.running && bit now (d.trigLine x.pin) then { x with cycles := x.cycles + 1 } else { x with running := false }).filter
  fun x => x.running || decide (1000 * (d.cycle + 1) < pulseEnd x)

/-- A rising edge of line `l` at its consumers (R70, R236, R296, R300). -/
def lineEdge (l : Nat) (d : Device) : Device :=
  let d1 := if d.o 0x1500 0x05 = l then broadcastStrobe d else d
  let d2 := tmuLine l true (lineTrigger l d1)
  each (pulsePin true) ((List.range 4).filter fun k => d.trigMode k == 2 && d.trigLine k == l) d2

/-- The lines asserted now that were not in the cycle before, and whose edge has not been acted on in the present one. -/
def risingLines (d : Device) : List Nat :=
  (List.range 32).filter fun l => bit d.linesAsserted l && !(bit d.event.linePrev l) && !(bit d.event.edged l)

/-- The rising edges of the present cycle act at their consumers, each once, whatever asserts the line (R296). -/
def riseLines (d : Device) : Device :=
  each lineEdge d.risingLines { d with event := { d.event with edged := d.risingLines.foldl (fun m l => setBit m l true) d.event.edged } }

/-- Lines pulsed for the present cycle (R296). -/
def pulseLines (mask : Nat) (d : Device) : Device :=
  riseLines { d with event := { d.event with linePulse := d.event.linePulse ||| mask % 2 ^ 32 } }

/-- A site holds line `l` set, or releases it (R142). -/
def setLine (s l : Nat) (v : Bool) (d : Device) : Device :=
  let held := Cells.read 0 s d.event.lineSet
  riseLines { d with event := { d.event with lineSet := Cells.write 0 s (setBit held l v) d.event.lineSet } }

/-- Every line that a site holds is released, and what it has under way to the plane comes to nothing (R142, R145). -/
def releaseLines (s : Nat) (d : Device) : Device :=
  { d with
    event := { d.event with lineSet := Cells.write 0 s 0 d.event.lineSet }
    sites := { d.sites with signals := d.sites.signals.filter fun x => x.site != s } }

/-- A cycle ends: its falling edges are known and act on the TMUs (R107), pulses end with it, and the TRIG outputs follow
(R295, R296, R300). -/
def linesTick (d0 : Device) : Device :=
  let now := d0.linesAsserted
  let d := each (tmuLine · false) ((List.range 32).filter fun l => bit d0.event.linePrev l && !(bit now l)) d0
  { d with event := { d.event with
    linePrev := now, linePulse := 0, edged := 0, ciPrev := d.event.ciPulse, ciPulse := 0, cfeWake := 0, trigOut := d.trigTick now } }

/-- What the host has asked for in the cycle that now begins: the broadcast strobe, and pulses on its lines (R296). -/
def hostTick (d : Device) : Device :=
  let d0 := { d with event := { d.event with pulseNext := 0, strobeNext := false } }
  let d1 := if d.event.strobeNext then broadcastStrobe d0 else d0
  if d.event.pulseNext = 0 then d1 else pulseLines d.event.pulseNext d1

/-- The host's pulse of lines in the next cycle. -/
def pulseNext (mask : Nat) (d : Device) : Device :=
  { d with event := { d.event with pulseNext := d.event.pulseNext ||| mask } }

/-- SNAP_IN edges whose registration is due form a trigger (R304). -/
def snapInTick (d : Device) : Device :=
  if d.event.snapIn.isEmpty then d
  else
    let d1 := { d with event := { d.event with snapIn := d.event.snapIn.filter fun c => decide (d.cycle < c) } }
    if d.event.snapIn.any fun c => decide (c ≤ d.cycle) then registerSnap 2 0xFFFF d.cycle d1 else d1

/-- A falling edge on SNAP_IN is registered 4 ns to 5 ns later, if it is enabled (R302, R304). -/
def snapInEdge (d : Device) : Device :=
  if d.o 0x1500 0x14 = 1 then
    { d.fresh with event := { d.event with snapIn := d.event.snapIn ++ [d.cycle + if Config.snapLate d.freeCtr then 5 else 4] } }
  else d

/-- An active pulse on a TRIG pin in input mode, whose edge comes `edge` ps into the present cycle and which lasts
`width` ps: the line is asserted in the cycles that contain the pulse shifted by 6 ns to 7 ns; one shorter than 3 ns
may be missed (R300). -/
def trigInputOp (k edge width : Nat) (d : Device) : Device :=
  if d.trigMode k ≠ 1 ∨ width = 0 then d
  else
    let d1 := d.fresh
    if width < 3000 ∧ Config.shortPulse d.freeCtr = false then d1
    else
      let at0 := d.cycle * 1000 + edge + 6000 + (Config.trigDelay d.freeCtr).val
      { d1 with event := { d1.event with trigIn := d1.event.trigIn ++ [(k, at0 / 1000, (at0 + width - 1) / 1000)] } }

/-- The lines of TRIG inputs rise in the cycle that now begins, and pulses that are over are dropped (R300). -/
def trigInputsTick (d : Device) : Device :=
  if d.event.trigIn.isEmpty then d
  else
    riseLines { d with event := { d.event with trigIn := d.event.trigIn.filter fun p => decide (d.cycle ≤ p.2.2) } }

/-! ## FAULT_N (R299) -/

/-- An occurrence routed to FAULT_N. -/
def setFault (src : Nat) (d : Device) : Device :=
  if d.event.faultLatch then d
  else ({ d with event := { d.event with faultLatch := true } }.w 0x1500 0x02 src).addSat 0x1500 0x04 4 1

def clearFault (d : Device) : Device :=
  { d with event := { d.event with faultLatch := false } }.w 0x1500 0x02 0xFFFF

/-! ## Reports and counts (R55, R297) -/

def countKey (src : Nat) : Nat := okey (0x1550 + src / 16) (1 + src % 16)

/-- One of the U64 counts of a source at byte `off`, raised by 1. -/
def addCount (src off : Nat) (d : Device) : Device :=
  let r := d.get (countKey src)
  d.put (countKey src) (setFld r off 8 (fld r off 8 + 1))

def setPendingFlag (src v : Nat) (d : Device) : Device :=
  d.put (countKey src) (setFld (d.get (countKey src)) 24 1 v)

/-- An occurrence routed to the ring opens a report or joins the pending one. -/
def reportOccurrence (src time : Nat) (d : Device) : Device :=
  match d.event.reports.find? fun r => r.src == src with
  | some _ =>
    addCount src 16 { d with event := { d.event with
      reports := d.event.reports.map fun r => if r.src = src then { r with count := r.count + 1 } else r } }
  | none =>
    setPendingFlag src 1 { d with event := { d.event with reports := d.event.reports ++ [⟨src, 1, time⟩] } }

/-- One occurrence is delivered (R294, R295): its lines and TRIG pins are pulsed, CFEs are woken, it is reported and
counted, and it sets the fault latch. Its route is the one in force when it was raised. -/
def deliver (x : Occurrence) (d : Device) : Device :=
  let flags := fld x.route 12 1
  let trig := fld x.route 13 1
  let d1 := addCount x.src 0 d
  let d2 := if bit flags 0 then reportOccurrence x.src x.time d1 else addCount x.src 8 d1
  let d3 := if bit flags 1 then setFault x.src d2 else d2
  let d5 := { d3 with event := { d3.event with
    cfeWake := d3.event.cfeWake ||| fld x.route 4 4,
    ciPulse := if 64 ≤ x.src then d3.event.ciPulse ||| 2 ^ (x.src - 64) else d3.event.ciPulse } }
  let d6 := each (pulsePin false) ((List.range 4).filter fun k => bit trig k) d5
  pulseLines (fld x.route 0 4) d6

/-- The oldest occurrence is delivered in the fourth cycle after it was raised (R295). -/
def deliveryOp (d : Device) : Device :=
  match d.event.raised with
  | [] => d
  | x :: rest =>
    if x.cycle + 4 ≤ d.cycle then deliver x { d with event := { d.event with raised := rest } } else d

end Device

/-! ## Meanings -/

open Device

/-- FAULT_LATCH_CLEAR (R299). -/
def execFaultLatchClear (p : Port) (v : Byte) (s : State) : Host.Outcome State Fault Refusal :=
  nextDev s (hostWrite s.dev p 0x1500 0x03 v.toNat false clearFault)

/-- TRIGGER_LINE_PULSE (R296). -/
def execTriggerLinePulse (p : Port) (mask : BitVec 32) (s : State) : Host.Outcome State Fault Refusal :=
  nextDev s (hostWrite s.dev p 0x1500 0x07 mask.toNat false (pulseNext mask.toNat))

/-- TRIG_INPUT (R300). -/
def execTrigInput (k : Fin 4) (edge : Fin 1000) (width : BitVec 32) (s : State) : Host.Outcome State Fault Refusal :=
  nextDev s (trigInputOp k.val edge.val width.toNat s.dev)

/-- SNAPSHOT_TRIGGER (R302, R303). -/
def execSnapshotTrigger (p : Port) (v : Byte) (s : State) : Host.Outcome State Fault Refusal :=
  nextDev s (hostWrite s.dev p 0x1500 0x20 v.toNat false (fun d => registerSnap 1 0xFFFF d.cycle d))

/-- SNAP_IN (R302). -/
def execSnapIn (s : State) : Host.Outcome State Fault Refusal :=
  nextDev s (snapInEdge s.dev)

end Sys2Proof.Machine
end

