-- ==== Sys2Proof/Machine/Snapshot.lean ====
section
/-!
DEFINITION. The snapshot banks (R301 to R307): their contents, the latch, and re-arming.
-/
namespace Sys2Proof.Machine

/-- Kind, unit number and tile of a bank (R301, R307); the Crocus bank has tile 8. -/
def bankKind (b : Nat) : Nat := if b < 128 then 0 else if b < 160 then 1 else if b < 168 then 2 else 3
def bankUnit (b : Nat) : Nat := if b < 128 then b else if b < 160 then b - 128 else if b < 168 then b - 160 else 0
def bankTile (b : Nat) : Nat := if b < 128 then b / 16 else if b < 160 then (b - 128) / 4 else if b < 168 then b - 160 else 8

/-- A RECORD put together from (offset, size, value) fields. -/
def packFields (l : List (Nat × Nat × Nat)) : Nat :=
  l.foldl (fun a p => a + p.2.2 % 2 ^ (8 * p.2.1) * 2 ^ (8 * p.1)) 0

namespace Device

/-! ## Contents (R307) -/

/-- A monitor state for a bank: two bits a channel. -/
def monitorBits (d : Device) (q : Nat) : Nat :=
  (List.range 4).foldl (fun a c => a + d.o (chanIx (4 * q + c)) 0x14 % 4 * 2 ^ (2 * c)) 0

/-- The states of the vector at the commit point as the vector has them, K as 7: three bits a channel. -/
def pinBits (d : Device) (q : Nat) : Nat :=
  (List.range 4).foldl (fun a c => a + (d.pinOf (4 * q + c)).shown % 8 * 2 ^ (3 * c)) 0

def quadImage (d : Device) (q : Nat) : Nat :=
  let o (sub : Nat) : Nat := d.o (quadIx q) sub
  packFields [(32, 1, o 0x60), (33, 1, o 0x1D), (34, 1, o 0x18), (35, 1, o 0x69), (36, 1, d.condInputs q), (37, 1, o 0x66),
    (38, 1, o 0x67), (39, 1, o 0x6C), (40, 4, o 0x63), (44, 2, d.runAheadOf q), (48, 8, o 0x64), (56, 4, d.quadFill q), (64, 64, o 0x68),
    (128, 2, d.pinBits q), (130, 1, d.monitorBits q)]

def clusterImage (d : Device) (c : Nat) : Nat :=
  let site (k : Nat) : Nat := d.o (clusterIx c) (0x02 + k)
  let per (k : Nat) : List (Nat × Nat × Nat) :=
    if site k = 255 then [(32 + k, 1, 255)]
    else [(32 + k, 1, d.siteState (site k)), (36 + 2 * k, 2, d.o (siteIx (site k)) 0x33),
          (48 + 8 * k, 8, d.o (siteIx (site k)) 0x37)]
  let dps (i : Nat) : List (Nat × Nat × Nat) :=
    [(208 + i, 1, d.o (dpsIx (2 * c + i)) 0x23), (216 + 4 * i, 4, d.o (dpsIx (2 * c + i)) 0x20),
     (224 + 4 * i, 4, d.o (dpsIx (2 * c + i)) 0x21), (232 + 8 * i, 8, d.o (dpsIx (2 * c + i)) 0x2B)]
  packFields ((List.range 4).flatMap per ++ [(44, 1, d.o (clusterIx c) 0x60)] ++
    (List.range 16).map (fun i => (80 + 8 * i, 8, d.o (clusterIx c) (0x10 + i))) ++ (List.range 2).flatMap dps)

def tileImage (d : Device) (t : Nat) : Nat :=
  let sums := [0x19, 0x13, 0x1A, 0x1B, 0x16, 0x17, 0x12, 0x18]
  packFields ((32, 1, d.powerState t) :: (List.range 8).map (fun k => (48 + 2 * k, 2, d.o (0x1310 + t) (1 + k))) ++
    (List.range 8).map (fun i => (64 + 8 * i, 8, d.queueSum t (sums.getD i 0))) ++
    (List.range 4).map (fun i => (128 + 2 * i, 2,
      d.o (0x1620 + (4 * t + i)) 0x03 + d.o (0x1620 + (4 * t + i)) 0x04 + d.o (0x1620 + (4 * t + i)) 0x05)))

def crocusImage (d : Device) : Nat :=
  packFields [(32, 1, d.o 0x1100 0x05), (33, 1, d.o 0x1100 0x0A), (34, 1, d.o 0x1220 0x04), (35, 1, d.o 0x1780 0x01),
    (36, 4, d.o 0x1780 0x03), (40, 8, d.o 0x1100 0x18), (48, 8, d.o 0x1100 0x13), (56, 8, d.o 0x1100 0x14),
    (64, 4, d.o 0x1100 0x0D), (68, 4, d.o 0x1100 0x16)]

def bankImage (d : Device) (b : Nat) : Nat :=
  if bankKind b = 0 then d.quadImage (bankUnit b) else if bankKind b = 1 then d.clusterImage (bankUnit b)
  else if bankKind b = 2 then d.tileImage (bankUnit b) else d.crocusImage

/-- A bank as 0x1501.01 gives it: its latched content under a header that shows its present state and counts. -/
def bankContents (d : Device) (b : Nat) : Nat :=
  let x := d.bankOf b
  setFld (setFld (setFld (setFld (setFld x.content 0 1 (if x.full then 1 else 0)) 4 4 x.whileFull) 24 1 (bankKind b))
    25 1 (bankUnit b)) 26 2 x.missed

/-! ## The latch (R303 to R305) -/

/-- A bank latches unless it is FULL; in DOZE or deeper it misses the trigger (R304, R305). -/
def latchBank (x : SnapTrigger) (b : Nat) (d : Device) : Device :=
  let y := d.bankOf b
  if y.full then d.setBank b { y with whileFull := satAdd 32 y.whileFull 1 }
  else if bankTile b < 8 ∧ 3 ≤ d.powerState (bankTile b) then d.setBank b { y with missed := satAdd 16 y.missed 1 }
  else
    let head := packFields [(1, 1, x.kind), (2, 2, x.src), (8, 8, x.cycle + 16), (16, 8, d.ringNs)]
    d.setBank b { y with full := true, content := head + d.bankImage b }

def banks : List Nat := List.range 169

/-- The full-banks record 0x1500.26. -/
def settleFull (d : Device) : Device :=
  d.w 0x1500 0x26 (banks.foldl (fun a b => a + if (d.bankOf b).full then 2 ^ b else 0) 0)

/-- The latch of the oldest trigger, 16 cycles after it was registered (R304, R305). Every bank shows the state of the
latch cycle. -/
def latchOp (d : Device) : Device :=
  match d.event.snap with
  | [] => d
  | x :: rest =>
    if d.cycle < x.cycle + 16 then d
    else
      let d0 := { d with event := { d.event with snap := rest } }
      let anyFull := banks.any fun b => (d.bankOf b).full
      let d1 := each (latchBank x) banks d0
      let latched := banks.any fun b => (d1.bankOf b).full && !(d.bankOf b).full
      let d2 := if latched then ((d1.raise 61).addSat 0x1500 0x22 4 1).w 0x1500 0x24 (x.cycle + 16) else d1
      let d3 := if anyFull || x.behind then (d2.addSat 0x1500 0x23 4 1).raise 62 else d2
      settleFull d3

/-! ## Re-arming (R306) -/

/-- A FULL bank becomes ARMED; its counts start again, and its contents stay until its next latch. -/
def rearmOne (b : Nat) (d : Device) : Device :=
  let x := d.bankOf b
  if x.full then d.setBank b { x with full := false, whileFull := 0, missed := 0 } else d

def rearmAll (d : Device) : Device := settleFull (each rearmOne banks d)

/-- The bank that a port has selected (0x1500.25). -/
def bankSelected (d : Device) (p : Port) : Nat := d.get (portKey p 0x1500 0x25)

def rearmSelected (p : Port) (d : Device) : Device := settleFull (rearmOne (d.bankSelected p) d)

end Device

/-! ## Meanings -/

open Device

/-- SNAPSHOT_LATCH (R303 to R305, R307). -/
def execSnapshotLatch (s : State) : Host.Outcome State Fault Refusal := nextDev s (latchOp s.dev)

/-- REARM_ALL_BANKS (R306). -/
def execRearmAllBanks (p : Port) (v : Byte) (s : State) : Host.Outcome State Fault Refusal :=
  nextDev s (hostWrite s.dev p 0x1500 0x21 v.toNat false rearmAll)

/-- REARM_BANK (R306). -/
def execRearmBank (p : Port) (v : Byte) (s : State) : Host.Outcome State Fault Refusal :=
  nextDev s (hostWrite s.dev p 0x1501 0x02 v.toNat false (rearmSelected p))

end Sys2Proof.Machine
end

