-- ==== Sys2Proof/Machine/Fails.lean ====
section
/-!
DEFINITION. Fail counting, the first-fail record, and the fail log (R205, R206, R208, R209).
-/
namespace Sys2Proof.Machine

def count48 : Nat := 2 ^ 48 - 1

/-- The channels of a 512-bit mask, rising. -/
def maskChans (m : Nat) : List Nat := (List.range 512).filter fun n => m.testBit n

/-- A fail-log record (R208): kind, bytes 1 to 3, bytes 4 to 9 and bytes 10 to 15. -/
def logWord (kind b1 w2 v4 v10 : Nat) : Nat :=
  kind + b1 % 2 ^ 8 * 2 ^ 8 + w2 % 2 ^ 16 * 2 ^ 16 + v4 % 2 ^ 48 * 2 ^ 32 + v10 % 2 ^ 48 * 2 ^ 80

namespace Device

/-- The site fail count (R205). -/
def siteFails (d : Device) (s : Nat) : Nat := d.o (siteIx s) 0x37

/-- The step fail count: the rise of the site fail count since step begin (R205). -/
def stepFails (d : Device) (s : Nat) : Nat := d.siteFails s - (d.flowOf s).beginFails

/-- One fail of a channel (R205). -/
def countChan (n : Nat) (d : Device) : Device :=
  d.w (clusterIx (n / 16)) (0x10 + n % 16) (Nat.min (d.o (clusterIx (n / 16)) (0x10 + n % 16) + 1) count48)

/-- The fails of one vector are counted on their channels and on the site (R205). -/
def countFails (s fails : Nat) (d : Device) : Device :=
  let chans := maskChans fails
  let sum := d.siteFails s + chans.length
  let d1 := (each countChan chans d).w (siteIx s) 0x37 (Nat.min sum count48)
  if count48 < sum then d1.w (siteIx s) 0x43 1 else d1

/-- The first-fail record (R206) of a vector, if the record is armed and empty. -/
def captureFirst (s fails : Nat) (f : Flight) (d : Device) : Device :=
  if fld (d.o (siteIx s) 0x3A) 26 1 ≠ 0 ∨ fails = 0 then d
  else
    let x := d.flowOf s
    let chans := maskChans fails
    let r := packFields [(0, 2, x.recNo), (2, 2, chans.headD 0), (4, 4, recTest x.record), (8, 8, f.number), (16, 8, f.commit),
      (24, 2, chans.length), (26, 1, 1), (28, 4, f.blk)]
    (d.w (siteIx s) 0x3A r).setFlow s { x with firstFail := true }

/-- A write of 1 re-arms the first-fail record (R206). -/
def rearmFirst (s : Nat) (d : Device) : Device := d.w (siteIx s) 0x3A 0

/-! ## The fail log (R208, R209) -/

/-- The bytes of an entry of up to four records. -/
def logBytes (l : List Nat) : List Byte := (l.flatMap fun r => leBytes 16 r) ++ List.replicate (64 - 16 * l.length) 0

/-- The owner of the fail log's slots: the site where the fail log has real-time slots of its own (R253). -/
def logOwner (d : Device) (s : Nat) : Option Nat := if d.o 0x1600 0x05 != 0 then some s else none

/-- The open entry of an SDRAM queue is written, closed with NONE records (R208). -/
def closeLog (s : Nat) (d : Device) : Device :=
  let f := d.flowOf s
  if f.logEntry.isEmpty then d
  else enqueueEntry (d.failQueue s) (logBytes f.logEntry) true (d.logOwner s) (d.setFlow s { f with logEntry := [] })

/-- A record finds a place: an entry that is open, or a credit for a new one (R209). -/
def logRoom (d : Device) (s : Nat) : Bool :=
  (d.queuePlacement (d.failQueue s) == 0 && !(d.flowOf s).logEntry.isEmpty) || d.canReserve (d.failQueue s) 1

/-- A record that finds a place is written (R208). -/
def logPut (s rec_ : Nat) (d : Device) : Device :=
  let q := d.failQueue s
  let f := d.flowOf s
  if d.queuePlacement q ≠ 0 then enqueueEntry q (leBytes 16 rec_) true (d.logOwner s) (reserve q 1 d)
  else
    let d1 := if f.logEntry.isEmpty then reserve q 1 d else d
    let d2 := d1.setFlow s { f with logEntry := f.logEntry ++ [rec_], logSince := d.cycle }
    if 3 ≤ f.logEntry.length then closeLog s d2 else d2

def logDrop (s : Nat) (d : Device) : Device :=
  let f := d.flowOf s
  (d.addWrap (siteIx s) 0x3C 8 1).setFlow s { f with logDropped := f.logDropped + 1 }

/-- A record is written for a credit or dropped; after a drop a LOST record comes first (R209). -/
def logRecord (s rec_ : Nat) (d : Device) : Device :=
  if d.failQueue s = noQueue then d
  else
    let lost := (d.flowOf s).logDropped
    let d1 :=
      if lost ≠ 0 ∧ d.logRoom s = true then
        let e := logPut s (logWord 5 0 0 lost 0) d
        e.setFlow s { e.flowOf s with logDropped := 0 }
      else d
    if d1.logRoom s then logPut s rec_ d1 else logDrop s d1

/-- A record of vector number `number` is written behind those of the vectors before it, whose results may still be under way
(R208). -/
def logAfter (s number rec_ : Nat) (d : Device) : Device :=
  let z := d.seqOf s
  if z.flights.any fun f => decide (f.number < number) then d.setSeq s { z with logWait := z.logWait ++ [(number, rec_)] }
  else logRecord s rec_ d

/-- The records that no result under way comes before are written. -/
def releaseLog (s : Nat) (d : Device) : Device :=
  let z := d.seqOf s
  let due := z.logWait.takeWhile fun p => z.flights.all fun f => decide (p.1 ≤ f.number)
  each (fun rec_ e => logRecord s rec_ e) (due.map Prod.snd) (d.setSeq s { z with logWait := z.logWait.drop due.length })

/-- A FAIL record is offered within the fail-log limit (R209). -/
def offerFail (s rec_ : Nat) (d : Device) : Device :=
  let f := d.flowOf s
  if d.failQueue s = noQueue ∨ d.act (siteIx s) 0x1F ≤ f.logOffered then d
  else logRecord s rec_ (d.setFlow s { f with logOffered := f.logOffered + 1 })

/-- The FAIL records of a vector, one for each cluster with a failing channel, in rising order (R208). -/
def logFails (s fails : Nat) (f : Flight) (d : Device) : Device :=
  each (fun c e => offerFail s (logWord 1 c (bitf fails (16 * c) 16) f.number f.commit) e)
    ((List.range 32).filter fun c => bitf fails (16 * c) 16 != 0) d

/-- The STEP record that begins the log of a RUN-PATTERN step (R208). -/
def logStep (s : Nat) (d : Device) : Device :=
  let f := d.flowOf s
  logRecord s (logWord 6 0 f.recNo (recTest f.record) f.begin_) d

/-- A partly filled entry is closed after 10 µs without a record (R208). -/
def logTimeoutOp (s : Nat) (d : Device) : Device :=
  if (d.flowOf s).logSince + 10000 ≤ d.cycle then closeLog s d else d

end Device

/-! ## Meanings -/

open Device

/-- FAIL_LOG_ENTRY_CLOSE (R208). -/
def execFailLogEntryClose (s : Site) (st : State) : Host.Outcome State Fault Refusal := nextDev st (logTimeoutOp s.val st.dev)

/-- FIRST_FAIL_REARM (R206). -/
def execFirstFailRearm (p : Port) (s : Site) (v : Byte) (st : State) : Host.Outcome State Fault Refusal :=
  nextDev st (hostWrite st.dev p (siteIx s.val) 0x3B v.toNat false (rearmFirst s.val))

end Sys2Proof.Machine
end

