-- ==== Sys2Proof/Machine/Peony.lean ====
section
/-!
DEFINITION. Peony payload sections (R158 to R162): the header, the four channel streams, the DICT index and mask streams,
and the checks in their order.
-/
namespace Sys2Proof.Machine

/-- Payload error causes (R162). -/
def causeHeader : Nat := 1
def causeCount : Nat := 2
def causeLength : Nat := 3
def causeRunSum : Nat := 4
def causeMask : Nat := 5
def causeEnd : Nat := 6
def causeNotResident : Nat := 7
def causeCaptureSpace : Nat := 8

/-- `n` rounded up to a multiple of `m`. -/
def padTo (m n : Nat) : Nat := ceilDiv n m * m

/-- The bytes of a list from `off`, `n` of them, as a number. -/
def bytesAt (bs : List Byte) (off n : Nat) : Nat := ofLE ((bs.drop off).take n)

/-- A section header (R158): count, modes, SCAN1 directions, the reserved byte, the channel stream lengths, the DICT index
length and the mask entry count. -/
structure PeonyHeader where
  count : Nat
  modes : Nat
  dirs : Nat
  rsv : Nat
  lens : List Nat
  dictLen : Nat
  maskCount : Nat
deriving DecidableEq, Repr

def peonyHeader (bs : List Byte) : PeonyHeader :=
  { count := bytesAt bs 0 4, modes := bytesAt bs 4 2, dirs := bytesAt bs 6 1, rsv := bytesAt bs 7 1,
    lens := (List.range 4).map fun c => bytesAt bs (8 + 4 * c) 4, dictLen := bytesAt bs 24 4, maskCount := bytesAt bs 28 4 }

def peonyMode (h : PeonyHeader) (c : Nat) : Nat := bitf h.modes (3 * c) 3

/-- The lengths of the streams in order: four channels, DICT index, mask. -/
def streamLens (h : PeonyHeader) : List Nat := h.lens ++ [h.dictLen, 4 * h.maskCount]

/-- Where stream `i` starts in the section. -/
def streamAt (h : PeonyHeader) (i : Nat) : Nat := 32 + (((streamLens h).take i).map (padTo 8)).sum

/-- The length of the section (R158). -/
def sectionLen (h : PeonyHeader) : Nat := padTo 16 (streamAt h 6)

/-- The stream of number `i` as a number. -/
def streamOfSection (bs : List Byte) (h : PeonyHeader) (i : Nat) : Nat := bytesAt bs (streamAt h i) ((streamLens h).getD i 0)

/-- A channel stream has the length that R159 gives its mode for `n` vectors. -/
def lengthOk (h : PeonyHeader) (n c : Nat) : Bool :=
  let l := h.lens.getD c 0
  match peonyMode h c with
  | 1 => l == ceilDiv (3 * n) 8
  | 2 => l == ceilDiv n 8
  | 3 => l % 4 == 0
  | _ => l == 0

/-- Some channel uses DICT. -/
def usesDict (h : PeonyHeader) : Bool := (List.range 4).any fun c => peonyMode h c == 4

/-- The entries of a RUN stream as numbers. -/
def runEntries (bs : List Byte) (h : PeonyHeader) (c : Nat) : List Nat :=
  (List.range (h.lens.getD c 0 / 4)).map fun i => bytesAt bs (streamAt h c + 4 * i) 4

def runSumOk (bs : List Byte) (h : PeonyHeader) (n c : Nat) : Bool :=
  let es := runEntries bs h c
  peonyMode h c != 3 || (es.all (fun e => decide (e < 2 ^ 19)) && (es.map (fun e => e % 65536)).sum == n)

/-- The mask entries (R161) as (offset, channel mask) pairs from the offset before. -/
def maskOffsets : Nat → List Nat → List (Nat × Nat)
  | _, [] => []
  | at_, e :: es => (at_ + e % 2 ^ 28, e / 2 ^ 28) :: maskOffsets (at_ + e % 2 ^ 28) es

def maskEntries (bs : List Byte) (h : PeonyHeader) : List Nat :=
  (List.range h.maskCount).map fun i => bytesAt bs (streamAt h 5 + 4 * i) 4

def maskOk (bs : List Byte) (h : PeonyHeader) (n : Nat) : Bool :=
  let es := maskEntries bs h
  (es.drop 1).all (fun e => e % 2 ^ 28 != 0) && (maskOffsets 0 es).all fun p => decide (p.1 < n)

/-- The first check of R162 that the section fails, if any: `n` vectors are due, `avail` bytes of the stream lie from the
section's start on. -/
def peonyError (bs : List Byte) (n avail : Nat) : Option Nat :=
  let h := peonyHeader bs
  if avail < 32 ∨ bs.length < 32 then some causeEnd
  else if h.modes / 4096 ≠ 0 ∨ 16 ≤ h.dirs ∨ h.rsv ≠ 0 ∨ (List.range 4).any (fun c => decide (5 ≤ peonyMode h c)) then
    some causeHeader
  else if h.count ≠ n then some causeCount
  else if (List.range 4).any (fun c => !(lengthOk h n c)) ∨ h.dictLen ≠ (if usesDict h then ceilDiv n 8 else 0) then
    some causeLength
  else if avail < sectionLen h ∨ bs.length < sectionLen h then some causeEnd
  else if (List.range 4).any fun c => !(runSumOk bs h n c) then some causeRunSum
  else if maskOk bs h n then none else some causeMask

/-- The states of channel `c` (R159, R160); `dict e` is dictionary entry `e`. -/
def channelStates (bs : List Byte) (h : PeonyHeader) (dict : Nat → Nat) (c : Nat) : List Nat :=
  let n := h.count
  let v := streamOfSection bs h c
  match peonyMode h c with
  | 1 => (List.range n).map fun i => bitf v (3 * i) 3
  | 2 => (List.range n).map fun i => (if bit h.dirs c then 2 else 0) + bitf v i 1
  | 3 => (runEntries bs h c).flatMap fun e => List.replicate (e % 65536) (e / 65536 % 8)
  | 4 => (List.range n).map fun i => bitf (dict (bytesAt bs (streamAt h 4 + i / 8) 1)) (24 * c + 3 * (i % 8)) 3
  | _ => List.replicate n 7

/-- The channels masked at vector `i` (R161). -/
def maskAt (l : List (Nat × Nat)) (i : Nat) : Nat := l.foldl (fun a p => if p.1 = i then a ||| p.2 else a) 0

/-- The vectors of a good section (R159 to R161). -/
def peonyVectors (bs : List Byte) (dict : Nat → Nat) : List QVector :=
  let h := peonyHeader bs
  let chans := (List.range 4).map fun c => channelStates bs h dict c
  let masks := maskOffsets 0 (maskEntries bs h)
  (List.range h.count).map fun i =>
    ⟨(List.range 4).foldl (fun a c => a + (chans.getD c []).getD i 7 * 2 ^ (3 * c)) 0, maskAt masks i⟩

end Sys2Proof.Machine
end

