-- ==== Sys2Proof/Machine/Streams.lean ====
section
/-!
DEFINITION. Streams (chapter 06): block tables and residency (R118, R163), the stream buffer and its refill (R167),
redirects (R168), section decode (R162), and the stall arm (R176).
-/
namespace Sys2Proof.Machine

/-- The loop cache's size (R163, R165). -/
def cacheSize : Nat := 65536

/-- A piece of `n` bytes from stream offset `p` holds a poisoned 64-byte piece. -/
def Stream.poisoned (x : Stream) (p n : Nat) : Bool :=
  x.poison.any fun k => decide (64 * k < p + n) && decide (p < 64 * k + 64)

/-- Bytes of a stream from position `start` on, with a fetched piece laid over them. -/
def overlay (start : Nat) (bs : List Byte) (piece : Nat × List Byte) : List Byte :=
  let lo := max start piece.1
  let part := (piece.2.drop (lo - piece.1)).take (start + bs.length - lo)
  bs.take (lo - start) ++ part ++ bs.drop (lo - start + part.length)

/-- A fetched piece replaces what was fetched from its position before. -/
def addPiece (at_ : Nat) (bs : List Byte) (l : List (Nat × List Byte)) : List (Nat × List Byte) :=
  (at_, bs) :: l.filter fun p => p.1 != at_

/-- A counter of the sixteen. -/
def counterOf (counters k : Nat) : Nat := fld counters (4 * k) 4

/-- The effect ends the play at its boundary: a WAIT, a HALT, an error or a stall-safe mark. -/
def Effect.stops : Effect → Bool
  | .wait _ _ _ _ _ => true
  | .halt _ => true
  | .error _ _ _ => true
  | .stallMark => true
  | _ => false

/-- The items cut before the `k`-th section: that section's block and all that follows. -/
def cutSections : Nat → List Item → List Item
  | _, [] => []
  | k, i :: l =>
    match i.section? with
    | none => i :: cutSections k l
    | some _ => match k with
      | 0 => []
      | k + 1 => i :: cutSections k l

/-- The block and path of the `k`-th section. -/
def sectionAt (k : Nat) (l : List Item) : Option Play := (l.filterMap Item.section?)[k]?

/-- Vectors that have been issued and are squashed (R145, R172). -/
def Item.squashed (c : Nat) : Item → Nat
  | .vectors p => p.queued c
  | .effect _ _ _ _ => 0

/-- The first cycle in which the next vector of the block can commit (R146, R154). -/
def Play.firstCycle (p : Play) : Nat := if p.done < p.early then 0 else p.ready + cyclesTo p.iter (p.done - p.base)

/-- The item without the mark of a predicted path. -/
def Item.confirmed : Item → Item
  | .vectors p => .vectors { p with spec := false }
  | .effect b e _ r => .effect b e false r

namespace Device

/-! ## Block tables (R118, R163) -/

def sdramNat (d : Device) (a n : Nat) : Nat := ofLE (d.bestEffortRead a n)

/-- The block-table entry of block `b` for quad `q`; the stream length after the last block (R118). -/
def entryOf (d : Device) (s q b : Nat) : Nat :=
  let x := d.streamOf q
  if (d.seqOf s).blocks ≤ b then x.length else d.sdramNat (quadAddr q (x.table + 8 * b)) 8

/-- The block is resident in quad `q` (R163). -/
def isResident (d : Device) (s q b : Nat) : Bool :=
  let x := d.streamOf q
  let e := d.entryOf s q b
  decide (x.resOff ≤ e) && decide (e < x.resOff + x.resLen)

/-- The first site quad in which the block is not resident: its header in the lead quad, its section, if it has one, in every
quad. -/
def nonResident (d : Device) (s b : Nat) (payload : Bool) : Option Nat :=
  (d.siteQuads s).find? fun q => (q == d.leadQuad s || payload) && !(d.isResident s q b)

/-- The block is resident for the site. -/
def blockResident (d : Device) (s b : Nat) (payload : Bool) : Bool := (d.nonResident s b payload).isNone

/-- The capture area holds the block (R165). -/
def isCaptured (d : Device) (s b : Nat) : Bool := (d.seqOf s).captures.any fun k => decide (k.first ≤ b) && decide (b < k.last)

/-- The capture area holds the block, and its copy has been made. -/
def isCopied (d : Device) (s b : Nat) : Bool :=
  (d.seqOf s).captures.any fun k => k.copied && decide (k.first ≤ b) && decide (b < k.last)

/-- Where the block lies in a quad's fetch order. -/
def streamPos (d : Device) (s q b : Nat) : Nat := (d.streamOf q).skip (d.entryOf s q b)

/-- Block `b` is the next of the stream order `n`, in every site quad. -/
def inOrder (d : Device) (s n b : Nat) : Bool := (d.siteQuads s).all fun q => d.streamPos s q b == d.streamPos s q n

/-- Where the section of block `b` starts in the stream of quad `q`. -/
def sectionStart (d : Device) (s q b : Nat) : Nat := d.entryOf s q b + if q = d.leadQuad s then 16 else 0

/-! ## Levels and the stall arm (R176, R180) -/

def stallPolicy (d : Device) (s : Nat) : Nat := d.act (siteIx s) 0x08
def stallLevel (d : Device) (s : Nat) : Nat := d.act (siteIx s) 0x0A

/-- The quad has what a resume asks (R177): the resume level, or the end of its stream. -/
def refilled (d : Device) (s q : Nat) : Bool :=
  let x := d.streamOf q
  decide (d.resumeLevel s ≤ d.fillOf s q) || decide (x.length ≤ x.fetched)

/-- The cause of a shortage of quad `q`: 4 REDIRECT or 1 STREAM (R179). -/
def shortCause (d : Device) (q : Nat) : Nat := if (d.streamOf q).redirected then 4 else 1

/-- Quad `q` arms the stall if it is short (R176). -/
def armStall (s q : Nat) (d : Device) : Device :=
  let z := d.seqOf s
  let x := d.streamOf q
  if z.phase = .play ∧ d.stallPolicy s = 0 ∧ d.stallLevel s ≠ 0 ∧ d.fillOf s q < d.stallLevel s ∧ x.fetched < x.length then
    match z.arm with
    | none => d.setSeq s { z with arm := some (d.cycle, [(q, d.shortCause q)]) }
    | some (c, l) =>
      if c = d.cycle ∧ !(l.any fun p => p.1 == q) then d.setSeq s { z with arm := some (c, l ++ [(q, d.shortCause q)]) } else d
  else d

/-- The sequencer has come to a mark while armed. -/
def markReached (z : Seq) : Bool :=
  z.items.any (fun i => match i with
    | .effect _ .stallMark _ _ => true
    | _ => false) ||
  (match z.hold with
   | .stall _ _ => true
   | _ => false)

/-- The arm clears without a stall when every site quad is back at the resume level (R176). -/
def clearArm (s : Nat) (d : Device) : Device :=
  let z := d.seqOf s
  if z.arm.isSome && !(markReached z) && (d.siteQuads s).all (fun q => decide (d.resumeLevel s ≤ d.fillOf s q)) then
    d.setSeq s { z with arm := none }
  else d

/-- The bytes before the first section that is not in decode, or before the next block of the stream order, are those of sections
in decode and of headers. -/
def settlePos (s q : Nat) (d : Device) : Device :=
  let z := d.seqOf s
  let x := d.streamOf q
  let waiting := (z.items.filterMap Item.section?).drop x.decoded.length
  let starts := (waiting.map fun p => (p.blk, d.sectionStart s q p.blk)).filter fun p => decide (x.pos ≤ p.2) && !(d.isResident s q p.1)
  let c := match starts with
    | [] => x.skip (d.entryOf s q z.streamNext)
    | p :: _ => p.2
  if x.pos ≤ c then armStall s q (d.setStream q { x with pos := min c (max x.pos x.fetched) }) else d

/-! ## Fetch (R167) -/

def addFetched (q n : Nat) (d : Device) : Device := d.addWrap (quadIx q) 0x79 8 n

/-- After a fetch: a redirect no longer counts once the fill is back at the resume level (R179), and the first time that the
buffer is full, or holds the end of the stream, is kept (R167). -/
def afterFetch (s q : Nat) (d0 : Device) : Device :=
  let d := settlePos s q d0
  let x := d.streamOf q
  let fill := d.fillOf s q
  let full := decide (bufferSize < fill + 64) || decide (x.length ≤ x.fetched)
  clearArm s (d.setStream q { x with redirected := x.redirected && decide (fill < d.resumeLevel s), filled := x.filled || full,
                                     refilling := !full })

/-- Everything from the `k`-th section on is taken from the run-ahead, and an error stands in its place (R122, R148). -/
def faultSection (s k : Nat) (p : Play) (reason cause quad : Nat) (d : Device) : Device :=
  let z := d.seqOf s
  let kept := cutSections k z.items
  let d1 := each (fun q e => e.setStream q { e.streamOf q with decoded := (e.streamOf q).decoded.take k }) (d.siteQuads s) d
  d1.setSeq s { z with items := kept ++ [.effect p.blk (.error reason cause quad) p.spec d.cycle], issuing := false }

/-- A poisoned piece from stream position `p` on lies in a section in decode: the section is at fault. -/
def poisonSection (s q p : Nat) (d : Device) : Device :=
  let l := (d.streamOf q).decoded
  let hit (y : Decoded) : Bool := !y.whole && decide (y.start < p + 64) && decide (p < y.start + y.len)
  match sectionAt (l.findIdx hit) (d.seqOf s).items with
  | some x => if l.any hit then faultSection s (l.findIdx hit) x 12 0 q d else d
  | none => d

/-- Bytes as a stream read finds them: one in a real-time slot is not compared with the write queue, and one in a best-effort slot
is (R256, R259). -/
def streamRead (d : Device) (rt : Bool) (a n : Nat) : List Byte := if rt then d.sdramRead a n else d.bestEffortRead a n

/-- Whether it finds the burst poisoned. -/
def streamPoison (d : Device) (rt : Bool) (burst : Nat) : Bool := if rt then d.burstPoisoned burst else d.bestEffortPoison burst

/-- The stream position of the next read to arrive for quad `q`: of its resident image first, then of its stream. -/
def nextArrival (x : Stream) : Nat := if x.resGot < x.resLen then x.resOff + x.resGot else x.fetched

/-- A 64-byte read that a slot has issued for quad `q` arrives, in stream order: of its resident image first, then of its stream. It
may find an error that the memory's code cannot correct. -/
def streamReadOp (q : Nat) (poisoned : Bool) (d : Device) : Device :=
  match d.siteOf q with
  | none => d
  | some s =>
    let x := d.streamOf q
    let p := nextArrival x
    match x.asked.find? fun a => a.1 == p with
    | none => d
    | some a =>
      let image := decide (x.resGot < x.resLen)
      let n := if image then 64 else x.pieceEnd p - p
      let bad := poisoned || d.streamPoison a.2 (quadAddr q (x.base + p) / 64)
      let y := { x with asked := x.asked.erase a, poison := if bad then (p / 64) :: x.poison else x.poison,
                        pieces := addPiece p (d.streamRead a.2 (quadAddr q (x.base + p)) n) x.pieces }
      let z := if image then { y with resGot := x.resGot + 64 } else { y with fetched := x.skip (p + n) }
      let d1 := afterFetch s q (addFetched q n (d.setStream q z))
      if bad && !image then poisonSection s q p d1 else d1

/-! ## Redirects (R168) -/

def redirectQuad (s t q : Nat) (d : Device) : Device :=
  let x := d.streamOf q
  let e := x.skip (d.entryOf s q t)
  let kept := x.decoded.map fun y => { y with whole := true }
  armStall s q
    ((d.setStream q { x with pos := e, fetched := e, asked := [], redirected := true, decoded := kept }).addWrap (quadIx q) 0x7A 4 1)

/-- A block is read from the loop cache or the capture area, or is the next in the stream buffer, of every site quad (R168). -/
def atHand (d : Device) (s t : Nat) : Bool :=
  (d.siteQuads s).all (fun q => d.isResident s q t) || d.isCaptured s t || d.inOrder s (d.seqOf s).streamNext t

/-- The sequencer goes on at block `t`, with a redirect if the block is not at hand. -/
def gotoBlock (s t : Nat) (d : Device) : Device :=
  let z := d.seqOf s
  if d.atHand s t then d.setSeq s { z with next := t }
  else each (redirectQuad s t) (d.siteQuads s) (d.setSeq s { z with next := t, streamNext := t })

/-! ## Decode (R162) -/

def settlePositions (s : Nat) (d : Device) : Device := each (settlePos s) (d.siteQuads s) d

/-- Bytes of quad `q` are at hand for block `b` up to stream position `p`: in the loop cache, in the capture area once the copy has
been made, or fetched (R163, R165, R167). -/
def bytesPresent (d : Device) (s q b p : Nat) : Bool :=
  let x := d.streamOf q
  if d.isResident s q b then decide (p ≤ x.resOff + x.resGot)
  else d.isCopied s b || decide (p ≤ x.fetched)

/-- A section of quad `q` needs nothing more of the fetch: it comes from the loop cache or the capture area. -/
def sectionHeld (d : Device) (s q : Nat) (p : Play) : Bool := d.isResident s q p.blk || d.isCopied s p.blk

/-- The header of the section is at the quad, and all of the section where it comes from the loop cache. -/
def sectionPresent (d : Device) (s q : Nat) (p : Play) (need : Nat) : Bool :=
  p.early != 0 || d.bytesPresent s q p.blk
    (if d.isResident s q p.blk then need else min (d.sectionStart s q p.blk + 32) (d.streamOf q).length)

/-- The splice buffer gives the block in hand: the fill has not ended, and the block is in the loop cache, in the capture area or
next in its order (R173). -/
def earlyBlock (d : Device) (s : Nat) : Bool :=
  let z := d.seqOf s
  decide (z.earlyLeft ≠ 0) &&
    (d.isResident s (d.leadQuad s) z.next || d.isCaptured s z.next || d.inOrder s z.earlyNext z.next)

/-- The header of the block in hand is at the lead quad. -/
def headerPresent (d : Device) (s : Nat) : Bool :=
  let z := d.seqOf s
  let l := d.leadQuad s
  d.earlyBlock s || d.bytesPresent s l z.next (min (d.entryOf s l z.next + 16) (d.streamOf l).length)

/-- Every vector that has been issued has reached the decoder of every site quad (R147, R162). -/
def sectionsIn (d : Device) (s : Nat) : Bool :=
  (d.siteQuads s).all fun q =>
    let x := d.streamOf q
    decide (((d.seqOf s).items.filterMap Item.section?).length ≤ x.decoded.length) &&
      x.decoded.all fun y => y.ready x.fetched == y.vecs.length

/-- `n` bytes of the stream of quad `q` from position `p` on: as they were fetched; what the fetch has yet to bring, as it stands
in the memory. -/
def streamBytes (d : Device) (q p n : Nat) : List Byte :=
  let x := d.streamOf q
  x.pieces.foldl (overlay p) (d.bestEffortRead (quadAddr q (x.base + p)) (min n (x.length - p)))

/-- The dictionary entry `e` of quad `q` (R160). -/
def dictEntry (d : Device) (q e : Nat) : Nat := fld (d.o (quadIx q) (0xE0 + e / 16)) (12 * (e % 16)) 12

/-- The next section of quad `q` is checked, and its decode begins (R162): it gives vectors as their share of its bytes comes
in (R179). -/
def sectionDecodeOp (q : Nat) (d : Device) : Device :=
  match d.siteOf q with
  | none => d
  | some s =>
    let z := d.seqOf s
    let x := d.streamOf q
    let k := x.decoded.length
    if z.phase ≠ .preload ∧ z.phase ≠ .play then d
    else match sectionAt k z.items with
      | none => d
      | some p =>
        let start := d.sectionStart s q p.blk
        let len := sectionLen (peonyHeader (d.streamBytes q start 32))
        let bytes := d.streamBytes q start len
        let err := peonyError bytes p.sectionCount (x.length - start)
        let need := if err.isSome then min (start + 32) x.length else start + len
        if !(d.sectionPresent s q p need) then d
        else if x.poisoned start (need - start) then faultSection s k p 12 0 q d
        else match err with
          | some c => faultSection s k p 11 c q d
          | none =>
            let y : Decoded := { blk := p.blk, vecs := peonyVectors bytes (d.dictEntry q), start := start + 32, len := len - 32,
                                 whole := d.sectionHeld s q p, early := p.early }
            settlePos s q (d.setStream q { x with decoded := x.decoded ++ [y] })

/-! ## Squashing (R121, R145, R172) -/

/-- A value at every quad of the site, as members follow their lead (R153). -/
def wQuads (s sub v : Nat) (d : Device) : Device := each (fun q e => e.w (quadIx q) sub v) (d.siteQuads s) d
def addQuads (s sub bytes n : Nat) (d : Device) : Device := each (fun q e => e.addWrap (quadIx q) sub bytes n) (d.siteQuads s) d

/-- The run-ahead becomes `kept`: the rest is squashed, what was decoded for it is dropped, and the stream order returns to
the first section that is still to be decoded. -/
def squashTo (s : Nat) (kept : List Item) (gone : List Item) (d : Device) : Device :=
  let z := d.seqOf s
  let n := (gone.map (Item.squashed d.cycle)).sum
  let k := (kept.filterMap Item.section?).length
  let lead := d.streamOf (d.leadQuad s)
  let undecoded := ((z.items.filterMap Item.section?).drop (max k lead.decoded.length)).filter fun p =>
    decide (lead.pos ≤ d.sectionStart s (d.leadQuad s) p.blk) && !(d.isResident s (d.leadQuad s) p.blk)
  let order := match undecoded with
    | [] => z.streamNext
    | p :: _ => p.blk
  let d1 := each (fun q e => e.setStream q { e.streamOf q with decoded := (e.streamOf q).decoded.take k }) (d.siteQuads s) d
  addQuads s 0x7B 8 n (d1.setSeq s { d1.seqOf s with items := kept, streamNext := order, nextMark := false })

/-! ## The issue-time state (R121) -/

def seqCounters (d : Device) (s : Nat) : Nat := d.o (quadIx (d.leadQuad s)) 0x68
def seqFlags (d : Device) (s : Nat) : Nat := d.o (quadIx (d.leadQuad s)) 0x69
def setCounter (s k v : Nat) (d : Device) : Device := d.w (quadIx (d.leadQuad s)) 0x68 (setFld (d.seqCounters s) (4 * k) 4 v)
def setFlag (s k : Nat) (v : Bool) (d : Device) : Device := d.wbit (quadIx (d.leadQuad s)) 0x69 k v

def snapOf (d : Device) (s : Nat) : IssueSnap :=
  let z := d.seqOf s
  { loops := z.loops, calls := z.calls, counters := d.seqCounters s, flags := d.seqFlags s, jump := z.jump,
    captures := z.captures, order := z.streamNext }

/-- The bytes of quad `q` that the capture area holds (R165). -/
def captureUsed (d : Device) (s q : Nat) : Nat :=
  ((d.seqOf s).captures.map fun k => d.entryOf s q k.last - d.entryOf s q k.first).sum

/-- The capture area in use of a quad (0x2200+q.7D). -/
def settleCapture (s : Nat) (d : Device) : Device := each (fun q e => e.w (quadIx q) 0x7D (e.captureUsed s q)) (d.siteQuads s) d

/-- What a squash leaves in the capture area: a copy that has been made since stays made. -/
def keptCaptures (now old : List Capture) : List Capture :=
  old.map fun k => { k with copied := k.copied || now.contains { k with copied := true } }

/-- The issue-time state returns to that of a point of the pattern (R121). -/
def restoreSnap (s : Nat) (x : IssueSnap) (d : Device) : Device :=
  let z := d.seqOf s
  let d1 := d.setSeq s { z with loops := x.loops, calls := x.calls, jump := x.jump, captures := keptCaptures z.captures x.captures }
  settleCapture s ((d1.w (quadIx (d.leadQuad s)) 0x68 x.counters).w (quadIx (d.leadQuad s)) 0x69 x.flags)

/-- The state at the last committed vector, where an instruction ends its hold and writes a flag or counter. -/
def markSnap (s : Nat) (d : Device) : Device := d.setSeq s { d.seqOf s with lastSnap := d.snapOf s }

/-! ## The SPLICE event jump (R139, R175) -/

/-- The period of the next vector: that of the last TSET before it in the run-ahead, or the one in force (R99). -/
def frontPeriod (d : Device) (s : Nat) : List Item → Nat → Nat
  | .effect _ (.tset k) _ _ :: l, _ => d.frontPeriod s l (timePeriod (d.act (quadIx (d.leadQuad s)) (0x20 + k)))
  | .effect _ _ _ _ :: l, p => d.frontPeriod s l p
  | _, p => p

/-- The first of the boundaries, `period` apart, from `b` on that does not lie before `t`. -/
def boundaryFrom (b t period : Nat) : Nat := b + ceilDiv (t - b) period * period

/-- The run-ahead cut behind the first jump point not committed in cycle `c`, with what comes after it and the issue-time state
there; `b` is the first boundary in ps at which the front's next vector may commit, `period` its period. A WAIT, a HALT, an error
or a mark before it leaves the choice to the boundary. -/
def cutAtJump (d : Device) (s c : Nat) : Nat → Nat → List Item → Option (List Item × List Item × IssueSnap)
  | _, _, [] => none
  | b, period, .effect blk e sp r :: l =>
    if e.stops then none
    else
      let period1 := d.frontPeriod s [.effect blk e sp r] period
      (d.cutAtJump s c b period1 l).map fun x => (.effect blk e sp r :: x.1, x.2)
  | b, period, .vectors p :: l =>
    let left := p.total - p.done
    let first := if left = 0 then b else boundaryFrom b (1000 * p.firstCycle) period
    let skip := ceilDiv (1000 * c - first) period
    if skip < left then
      let k := p.jumpFrom (p.done + skip + 1)
      some ([.vectors { p with total := k }], .vectors { p with done := k } :: l, p.snap)
    else (d.cutAtJump s c (first + left * period) period l).map fun x => (.vectors p :: x.1, x.2)

/-- The jump point of a SPLICE event jump has been chosen. -/
def jumpChosen (z : Seq) : Bool :=
  z.items.any fun i => match i with
    | .effect _ .jumpMark _ _ => true
    | _ => false

/-- A SPLICE MATCH without a match, or cut off, reports an overrun of 0 (R136, R174). The OVERRUN entry's vector number and cycle
are those of a matching iteration, which it does not have: they are free values (log entry 104). -/
def noOverrun (s : Nat) (d : Device) : Device :=
  logRecord s (logWord 2 0 0 (Config.unstated d.freeCtr) (Config.unstated (d.freeCtr + 1))) (d.fresh.fresh.w (siteIx s) 0x14 0)

/-- A MATCH is unresolved: an event jump cuts it off (R136, R140). -/
def cutsMatch (z : Seq) : Bool :=
  match z.cond with
  | some k => k.isMatch
  | none => false

/-- A registered SPLICE event jump is chosen from its registration cycle on, once the run-ahead holds its jump point: the path
behind it is squashed, an unresolved conditional with it, and the target issues from the registration cycle on (R140, R175). In a
WAIT's hold or a stall the choice waits (R140). -/
def chooseJump (s : Nat) (d : Device) : Device :=
  let z := d.seqOf s
  let held := match z.hold with
    | .none => false
    | .result => false
    | _ => true
  match z.request with
  | none => d
  | some (r, j) =>
    if !j.splice || z.phase != .play || held || jumpChosen z || decide (d.cycle < r) || !(d.sectionsIn s) then d
    else match d.cutAtJump s (r + issueLatency)
        (boundaryFrom z.boundaryPs (1000 * z.resumeAt) (d.quadPeriod (d.leadQuad s))) (d.quadPeriod (d.leadQuad s)) z.items with
      | none => d
      | some (kept, gone, snap) =>
        let d1 := restoreSnap s snap (squashTo s kept gone d)
        let y := d1.seqOf s
        let d2 := settleCapture s (d1.setSeq s
          { y with items := kept.map Item.confirmed ++ [.effect y.next .jumpMark false d.cycle], loops := [], calls := [], jump := none,
                   captures := [], cond := none, issuing := true, issueFree := r, backdate := true, earlyLeft := 0 })
        gotoBlock s j.target (if cutsMatch z then noOverrun s d2 else d2)

/-- The choice of a waiting event jump in the site of quad `q`. -/
def chooseJumpAt (q : Nat) (d : Device) : Device :=
  match d.siteOf q with
  | some s => chooseJump s d
  | none => d

end Device

/-! ## Meanings -/

open Device

/-- STREAM_READ (R163, R167). -/
def execStreamRead (q : Quad) (poisoned : Bool) (s : State) : Host.Outcome State Fault Refusal :=
  nextDev s (chooseJumpAt q.val (streamReadOp q.val poisoned s.dev))

/-- SECTION_DECODE (R158 to R162). -/
def execSectionDecode (q : Quad) (s : State) : Host.Outcome State Fault Refusal :=
  nextDev s (chooseJumpAt q.val (sectionDecodeOp q.val s.dev))

end Sys2Proof.Machine
end

