-- ==== Sys2Proof/Machine/Issue.lean ====
section
/-!
DEFINITION. The Veruisk sequencer at issue (R121 to R141, R146, R164 to R166, R170, R173): what each instruction does when
the lead sequencer decodes it.
-/
namespace Sys2Proof.Machine

/-! ## Halt reasons (R153) -/

def haltNone : Nat := 0
def haltHalt : Nat := 1
def haltStopped : Nat := 2
def haltUnderrun : Nat := 3
def haltOpcode : Nat := 4
def haltOperand : Nat := 5
def haltRange : Nat := 6
def haltLoop : Nat := 7
def haltCall : Nat := 8
def haltRet : Nat := 9
def haltNest : Nat := 10
def haltPayload : Nat := 11
def haltPoisoned : Nat := 12
def haltParity : Nat := 13
def haltClock : Nat := 14
def haltThermal : Nat := 15

/-- No quad, in the faulting-quad record. -/
def noQuad : Nat := 255

/-! ## Operand checks (R124) -/

/-- The flag bits that an opcode does not list are 0: of MODE, RES, PRED, and the reserved bits. -/
def flagsOk (w : VWord) (mode res pred : Bool) : Bool :=
  (mode || !w.mode) && (res || !w.res) && (pred || !w.pred) && w.rsv == 0

/-- The mask of bits that a field lists covers its value. -/
def within (v mask : Nat) : Bool := v &&& mask == v

/-- The operand fields A, B, N, T, X against the bits each lists. -/
def fieldsOk (w : VWord) (a b n t x : Nat) : Bool :=
  within w.a.toNat a && within w.b.toNat b && within w.n.toNat n && within w.t.toNat t && within w.x.toNat x

def all32 : Nat := 0xFFFFFFFF

/-- A condition select of BIF (R132). -/
def selectOk (c : Nat) : Bool := decide (c ≤ 0x21)
def selectCounter (c : Nat) : Bool := decide (0x10 ≤ c) && decide (c ≤ 0x1F)

namespace Device

/-! ## What the objects show (R153, R181) -/

/-- The lead quad's state (R153). -/
def leadState (z : Seq) : Nat :=
  match z.phase with
  | .off => 1
  | .preload => 2
  | .ending => 2
  | .play => match z.hold with
    | .wait _ _ _ _ _ _ => 3
    | .stall _ _ => 4
    | _ => 2

/-- A quad's sequencer state, but where it is FENCED or RELOADING. -/
def setQuadState (q v : Nat) (d : Device) : Device := if d.o (quadIx q) 0x60 = 6 ∨ d.o (quadIx q) 0x60 = 7 then d else d.w (quadIx q) 0x60 v

def jumpStatus (z : Seq) : Nat := if z.request.isSome then 2 else if z.jump.isSome then 1 else 0

def settleSeq (s : Nat) (d : Device) : Device :=
  let z := d.seqOf s
  let l := d.leadQuad s
  let d1 := each (fun q e => setQuadState q (if q = l then leadState z else 5) e) (d.siteQuads s) d
  ((d1.w (quadIx l) 0x66 z.loops.length).w (quadIx l) 0x67 z.calls.length).w (quadIx l) 0x6C (jumpStatus z)

/-! ## Whether the sequencer issues -/

/-- A conditional in WAIT mode, or a MATCH in any mode, lets nothing issue until it resolves (R133, R134, R136). -/
def condBlocks (z : Seq) : Bool :=
  match z.cond with
  | some k => k.isMatch || !k.splice
  | none => false

/-- An armed WAIT-mode event jump lets nothing issue beyond a jump point that has not committed (R175). -/
def jumpBlocks (d : Device) (s : Nat) : Bool :=
  match (d.seqOf s).jump with
  | some j => !j.splice && d.queuedVectors s != 0
  | none => false

/-- The vectors that commit before what issues now can enter the pre-pin buffer, as long as play goes on (R154, R155). -/
def soonPlayed (d : Device) (s : Nat) : Nat :=
  let z := d.seqOf s
  match z.phase, z.hold with
  | .play, .none => (1000 * (d.cycle + issueLatency) - z.boundaryPs) / d.frontPeriod s z.items (d.quadPeriod (d.leadQuad s))
  | _, _ => 0

/-- The next block may issue in this cycle: its header is there, what has been issued before it has reached the decoders, and its
first vector finds room in the pre-pin buffer (R146, R155, R167). -/
def mayIssue (d : Device) (s : Nat) : Bool :=
  let z := d.seqOf s
  (z.phase == .preload || z.phase == .play) && z.issuing && decide (z.issueFree ≤ d.cycle) && !(condBlocks z) &&
  !(d.jumpBlocks s) && d.headerPresent s && d.sectionsIn s && decide (d.queuedVectors s < prePinSize + d.soonPlayed s)

/-- The cycle that the present issue counts from. -/
def issueTime (d : Device) (s : Nat) : Nat :=
  let z := d.seqOf s
  if z.backdate then z.issueFree else d.cycle

/-- A SPLICE conditional is unresolved: what issues now lies on its predicted path (R170). -/
def onPrediction (d : Device) (s : Nat) : Bool :=
  match (d.seqOf s).cond with
  | some k => k.splice && !k.isMatch
  | none => false

/-- The cycle from which what issues now can commit (R154, R173). -/
def readyTime (d : Device) (s : Nat) : Nat := if (d.seqOf s).earlyLeft ≠ 0 then d.cycle else d.issueTime s + issueLatency

/-- An effect of the block in hand joins the run-ahead. -/
def pushEffect (s : Nat) (e : Effect) (d : Device) : Device :=
  let z := d.seqOf s
  d.setSeq s { z with items := z.items ++ [.effect z.next e (d.onPrediction s) (d.readyTime s)] }

/-- Issue stops. -/
def stopIssue (s : Nat) (d : Device) : Device := d.setSeq s { d.seqOf s with issuing := false }

/-- An error found at issue: issue stops, and the error rides on the block's boundary (R122). `quad` is the one at fault with a
payload section, if any (R148). -/
def issueErrorAt (s reason cause quad : Nat) (d : Device) : Device := stopIssue s (pushEffect s (.error reason cause quad) d)

/-- An error of the instruction itself, or of what the lead quad has of it. -/
def issueError (s reason cause : Nat) (d : Device) : Device :=
  issueErrorAt s reason cause (if cause = 0 then noQuad else d.leadQuad s) d

/-- The block in hand took `cost` cycles, or none if the splice buffer gives it (R173); the gap before the first vector after
a hold grows with each block that plays none (R137, R146, R171). -/
def spend (s cost : Nat) (plays : Bool) (d : Device) : Device :=
  let z := d.seqOf s
  let t := d.issueTime s
  let free := t + if plays || z.earlyLeft == 0 then cost else 0
  d.setSeq s { z with issueFree := free, backdate := z.backdate && decide (free < d.cycle),
                      gapEnd := if !plays && z.gapEnd == t + issueLatency && d.cycle ≤ z.gapEnd then free + issueLatency else z.gapEnd }

/-- The block in hand is done: issue goes on at the block after it. -/
def nextBlock (s : Nat) (d : Device) : Device := d.setSeq s { d.seqOf s with next := (d.seqOf s).next + 1 }

/-- Of `n` vectors of the block in hand, those that the splice buffer gives (R173). -/
def earlyVectors (d : Device) (s n : Nat) : Nat := min n (d.seqOf s).earlyLeft

/-- Vectors of the block in hand join the run-ahead. -/
def pushVectors (s total interval iter : Nat) (rpt : Bool) (uniform : Option Nat) (d : Device) : Device :=
  let z := d.seqOf s
  let early := d.earlyVectors s total
  let p : Play := { blk := z.next, total := total, done := 0, interval := interval, iter := iter, rpt := rpt,
                    uniform := uniform, mark := z.nextMark, spec := d.onPrediction s, ready := d.issueTime s + issueLatency,
                    base := early, early := early,
                    wait := (z.jump.map fun j => !j.splice).getD false, snap := d.snapOf s }
  d.setSeq s { z with items := z.items ++ [.vectors p], nextMark := false, earlyLeft := z.earlyLeft - early }

/-! ## The frame of every issue -/

/-- A byte of the header of block `b`, as the lead's stream holds it. -/
def headerByte (d : Device) (s b i : Nat) : Nat :=
  let l := d.leadQuad s
  bytesAt (d.streamBytes l (d.entryOf s l b + i) 1) 0 1

/-- The field T of block `b`. -/
def headerTarget (d : Device) (s b : Nat) : Nat :=
  let l := d.leadQuad s
  bytesAt (d.streamBytes l (d.entryOf s l b + 8) 4) 0 4

/-- Block `b` is an ENDL whose body starts at block `first`: the matching ENDL of a LOOP before it (R165). -/
def isEndlOf (d : Device) (s first b : Nat) : Bool := d.headerByte s b 0 == 4 && d.headerTarget s b == first

/-- No block from `lo` to before `hi` is such that `p`. -/
def noneFrom (p : Nat → Bool) (lo hi : Nat) : Bool := (List.range (hi - lo)).all fun i => !(p (lo + i))

/-- RES asserts that the block in hand is resident (R164): it lies between a LOOP entered with it and the first matching ENDL, or
in a subroutine entered with it, up to the RET that returns from it: of the innermost call whatever block from the target on is
reached, of an outer one up to the first RET at or after the target (DEDUCED, log entry 28). -/
def resActive (d : Device) (s : Nat) : Bool :=
  let z := d.seqOf s
  z.loops.any (fun l => l.res && decide (l.first ≤ z.next) && noneFrom (d.isEndlOf s l.first) l.first z.next) ||
  (z.calls.take 1).any (fun c => c.res && decide (c.target ≤ z.next)) ||
  (z.calls.drop 1).any fun c =>
    c.res && decide (c.target ≤ z.next) && noneFrom (fun b => d.headerByte s b 0 == 6) c.target z.next

/-- The block in hand is read from the loop cache, not from the stream (R146, R163, R165). -/
def fromCache (d : Device) (s : Nat) : Bool :=
  let b := (d.seqOf s).next
  d.isResident s (d.leadQuad s) b || (d.isCaptured s b && !(d.inOrder s (d.seqOf s).streamNext b))

/-- The header is taken: the stream order moves on past it, also past the blocks that a jump in the first pass of a captured body
leaves out (R165, R168), and the fill of the splice buffer ends at a block that is neither in the loop cache nor next in its order
(R173). -/
def takeHeader (s : Nat) (d : Device) : Device :=
  let z := d.seqOf s
  let b := z.next
  let inPass := z.captures.any fun k => decide (k.first ≤ z.streamNext) && decide (z.streamNext ≤ b) && decide (b < k.last)
  let order :=
    if !(d.isResident s (d.leadQuad s) b) && (d.inOrder s z.streamNext b || inPass) then b + 1 else z.streamNext
  d.setSeq s { z with streamNext := order, earlyLeft := if d.earlyBlock s then z.earlyLeft else 0,
                      earlyNext := if d.inOrder s z.earlyNext b then b + 1 else z.earlyNext }

/-- What stops the block in hand before its opcode is looked at: poison, residency, the stream's end (R153, R162, R164), as
(reason, cause, quad at fault). -/
def headerError (d : Device) (s : Nat) (w : VWord) (payload : Bool) : Option (Nat × Nat × Nat) :=
  let z := d.seqOf s
  let l := d.leadQuad s
  let x := d.streamOf l
  let e := d.entryOf s l z.next
  if w.poisoned || x.poisoned e 16 then some (haltPoisoned, 0, noQuad)
  else match (if d.resActive s then d.nonResident s z.next payload else none) with
    | some q => some (haltPayload, causeNotResident, q)
    | none => if z.blocks ≤ z.next ∨ x.length < e + 16 then some (haltPayload, causeEnd, l) else none

/-- Issue of a block: with a stall armed, the sequencer stops at a marked header (R176); an error stops it (R122, R124);
else `body` says what the instruction does. `ok`: its operands are listed values; `target`: it names a block. -/
def issue (s : Nat) (w : VWord) (payload ok target : Bool) (body : Device → Device) (d : Device) : Device :=
  let z := d.seqOf s
  if !(d.mayIssue s) then d
  else settleSeq s
    (if w.ssm && z.arm.isSome then stopIssue s (pushEffect s .stallMark d)
    else
      let d1 := takeHeader s (if w.ssm then d.setSeq s { z with nextMark := true } else d)
      match d.headerError s w payload with
      | some p => issueErrorAt s p.1 p.2.1 p.2.2 d1
      | none =>
        if !ok then issueError s haltOperand 0 d1
        else if target && decide (z.blocks ≤ w.t.toNat) then issueError s haltRange 0 d1
        else chooseJump s (settlePositions s (body d1)))

/-- A block whose only effect rides on its boundary. -/
def effectBlock (s : Nat) (e : Effect) (d : Device) : Device := nextBlock s (spend s 1 false (pushEffect s e d))

/-! ## VEC, RPT (R125, R126) -/

def vectorBlock (s n interval iter : Nat) (rpt : Bool) (uniform : Option Nat) (d : Device) : Device :=
  if n = 0 then nextBlock s (spend s 1 false d)
  else nextBlock s (spend s (ceilDiv (n - d.earlyVectors s n) 8) true (pushVectors s n interval iter rpt uniform d))

def issueVec (s : Nat) (w : VWord) (d : Device) : Device :=
  issue s w (w.n != 0) (flagsOk w false false false && fieldsOk w 0 0 all32 0 0xFFFF) false
    (vectorBlock s w.n.toNat w.x.toNat 0 false none) d

def issueRpt (s : Nat) (w : VWord) (d : Device) : Device :=
  let uni := if bit w.a.toNat 3 then some (w.a.toNat % 8) else none
  issue s w uni.isNone (flagsOk w false false false && fieldsOk w 0x0F 0 all32 0 0xFFFF) false
    (vectorBlock s w.n.toNat w.x.toNat 0 true uni) d

/-! ## LOOP, ENDL, CALL, RET (R128, R129, R164, R165) -/

/-- Filling the splice buffer ends here (R173). -/
def endEarly (s : Nat) (d : Device) : Device := d.setSeq s { d.seqOf s with earlyLeft := 0 }

/-- The first site quad whose free capture area the body from block `first` to before `last` does not fit (R165). -/
def captureShort (d : Device) (s first last : Nat) : Option Nat :=
  (d.siteQuads s).find? fun q =>
    decide (cacheSize - (d.streamOf q).resLen - d.captureUsed s q < d.entryOf s q last - d.entryOf s q first)

/-- The capture area holds the whole body from block `first` to before `last`, or is about to. -/
def bodyHeld (z : Seq) (first last : Nat) : Option Capture :=
  z.captures.find? fun k => decide (k.first ≤ first) && decide (last ≤ k.last)

/-- A body enters the capture area: its copy begins. -/
def beginCapture (s first last : Nat) (d : Device) : Device :=
  settleCapture s (d.setSeq s { d.seqOf s with captures := (d.seqOf s).captures ++ [⟨first, last, false⟩] })

/-- Block T - 1 of the body from block `first` to before `last` is the matching ENDL (R165). -/
def endlMatches (d : Device) (s first last : Nat) : Bool := decide (first < last) && d.isEndlOf s first (last - 1)

/-- The run-ahead before the boundary of the LOOP at block `b` whose block T - 1 is to be checked, the mark of that boundary, and
what comes after it. -/
def splitLoop (b : Nat) : List Item → Option (List Item × (IssueSnap × Bool × Nat) × List Item)
  | [] => none
  | .effect blk e sp r :: l =>
    match e with
    | .captureMark x => if blk = b then some ([], (x, sp, r), l) else (splitLoop b l).map fun y => (.effect blk e sp r :: y.1, y.2)
    | _ => (splitLoop b l).map fun y => (.effect blk e sp r :: y.1, y.2)
  | i :: l => (splitLoop b l).map fun y => (i :: y.1, y.2)

/-- The LOOP at block `b` is at fault (R122, R165): its boundary takes the error and the issue-time state is that before it; where
that boundary has passed, the error stands at the first one not committed. -/
def failLoop (s b : Nat) (d : Device) : Device :=
  let z := d.seqOf s
  match splitLoop b z.items with
  | some (kept, (snap, sp, r), gone) =>
    let d1 := restoreSnap s snap (squashTo s kept gone d)
    let y := d1.seqOf s
    stopIssue s (d1.setSeq s
      { y with items := kept ++ [.effect b (.error haltNest 0 noQuad) sp r], cond := if sp then y.cond else none })
  | none =>
    let d1 := restoreSnap s z.lastSnap (squashTo s [] z.items d)
    stopIssue s (d1.setSeq s { d1.seqOf s with items := [.effect b (.error haltNest 0 noQuad) false d.cycle], cond := none })

/-- The checks of block T - 1 that have come due (R165), the outermost LOOP first: one that fails puts its LOOP at fault. -/
def checkLoops (s : Nat) (due : List LoopEntry) (d : Device) : Device :=
  match due.reverse.find? fun l => !(d.endlMatches s l.first l.exit) with
  | some l => failLoop s (l.first - 1) d
  | none => d

/-- All of the body is there: its data has been fetched, or is in the loop cache. -/
def bodyFetched (d : Device) (s : Nat) (k : Capture) : Bool :=
  (d.siteQuads s).all fun q =>
    let x := d.streamOf q
    decide (min (d.entryOf s q k.last) x.length ≤ x.fetched) ||
      (d.isResident s q k.first && decide (d.entryOf s q k.last ≤ x.resOff + x.resGot))

/-- The copy of the oldest body that is still being captured is made, once all of it has been fetched: it has reached block T - 1,
which is checked with those of the LOOPs inside (R165). -/
def captureDoneOp (s : Nat) (d : Device) : Device :=
  let z := d.seqOf s
  match z.captures.find? fun k => !k.copied && d.bodyFetched s k with
  | none => d
  | some k =>
    let inside (l : LoopEntry) : Bool := l.check && decide (k.first ≤ l.first) && decide (l.exit ≤ k.last)
    checkLoops s (z.loops.filter inside) (d.setSeq s
      { z with captures := z.captures.map fun y => if y = k then { k with copied := true } else y,
               loops := z.loops.map fun l => if inside l then { l with check := false } else l })

/-- The capture area is released as the outermost captured body ends; what was not reached of it is behind in the stream order
(R165). -/
def endCapture (s : Nat) (d : Device) : Device :=
  let z := d.seqOf s
  let order := match z.captures.find? fun k => decide (k.first ≤ z.streamNext) && decide (z.streamNext < k.last) with
    | some k => k.last
    | none => z.streamNext
  settleCapture s (d.setSeq s { z with captures := [], streamNext := order })

def pushLoop (s : Nat) (l : LoopEntry) (d : Device) : Device :=
  d.setSeq s { d.seqOf s with loops := l :: (d.seqOf s).loops }

/-- A LOOP with a count of at least 1 enters its body (R128, R165): with RES nothing is captured; a body inside one that is being
captured has block T - 1 checked when that copy has reached it; any other is captured. -/
def enterLoop (s : Nat) (w : VWord) (count : Nat) (snap : IssueSnap) (d : Device) : Device :=
  let z := d.seqOf s
  let first := z.next + 1
  let last := w.t.toNat
  let entry (owns check : Bool) : LoopEntry :=
    { left := count, res := w.res, owns := owns, check := check, first := first, exit := last }
  let enter (owns check : Bool) (e : Device) : Device :=
    nextBlock s (spend s 1 false ((if check then pushEffect s (.captureMark snap) else id) (pushLoop s (entry owns check) e)))
  if w.res then enter false false d
  else match bodyHeld z first last with
    | some k =>
      if k.copied then (if d.endlMatches s first last then enter false false d else issueError s haltNest 0 d)
      else enter false true d
    | none =>
      match d.captureShort s first last with
      | some q => issueErrorAt s haltPayload causeCaptureSpace q d
      | none => enter true true (beginCapture s first last d)

def loopBody (s : Nat) (w : VWord) (d : Device) : Device :=
  let fromCounter := bit w.a.toNat 7
  let d1 := if fromCounter then endEarly s d else d
  let c := if fromCounter then counterOf (d.seqCounters s) (w.a.toNat % 16) else w.n.toNat
  if c = 0 then gotoBlock s w.t.toNat (spend s 1 false d1)
  else if 16 ≤ (d.seqOf s).loops.length then issueError s haltLoop 0 d1
  else enterLoop s w c (d.snapOf s) d1

def issueLoop (s : Nat) (w : VWord) (d : Device) : Device :=
  issue s w false (flagsOk w false true false && fieldsOk w 0x8F 0 all32 all32 0 && !(bit w.a.toNat 7 && w.n != 0)) true
    (loopBody s w) d

def endlBody (s : Nat) (w : VWord) (d : Device) : Device :=
  let z := d.seqOf s
  let d1 := if z.loops.length ≤ z.earlyLoops then endEarly s d else d
  let cost := if d.fromCache s then 0 else 1
  match z.loops with
  | [] => issueError s haltNest 0 d1
  | l :: rest =>
    if 1 < l.left then
      gotoBlock s w.t.toNat (spend s cost false (d1.setSeq s { d1.seqOf s with loops := { l with left := l.left - 1 } :: rest }))
    else
      let d2 := d1.setSeq s { d1.seqOf s with loops := rest }
      let d3 := if l.check then checkLoops s [l] d2 else d2
      if (d3.seqOf s).issuing then
        nextBlock s (spend s cost false (if l.owns && !(rest.any fun k => k.owns) then endCapture s d3 else d3))
      else d3

def issueEndl (s : Nat) (w : VWord) (d : Device) : Device :=
  issue s w false (flagsOk w false false false && fieldsOk w 0 0 0 all32 0) true (endlBody s w) d

def callBody (s : Nat) (w : VWord) (d : Device) : Device :=
  let z := d.seqOf s
  if 16 ≤ z.calls.length then issueError s haltCall 0 d
  else if !w.res && d.isCaptured s z.next then issueError s haltPayload causeNotResident d
  else
    gotoBlock s w.t.toNat (spend s 1 false
      (d.setSeq s { z with calls := ⟨z.next + 1, z.loops.length, w.res, w.t.toNat⟩ :: z.calls }))

def issueCall (s : Nat) (w : VWord) (d : Device) : Device :=
  issue s w false (flagsOk w false true false && fieldsOk w 0 0 0 all32 0) true (callBody s w) d

def retBody (s : Nat) (_w : VWord) (d : Device) : Device :=
  let z := d.seqOf s
  let d1 := if z.calls.length ≤ z.earlyCalls then endEarly s d else d
  match z.calls with
  | [] => issueError s haltRet 0 d1
  | c :: rest =>
    if c.depth ≠ z.loops.length then issueError s haltNest 0 d1
    else
      let cost := if d.isResident s (d.leadQuad s) z.next then 0 else 1
      gotoBlock s c.ret (spend s cost false (d1.setSeq s { d1.seqOf s with calls := rest }))

def issueRet (s : Nat) (w : VWord) (d : Device) : Device :=
  issue s w false (flagsOk w false false false && fieldsOk w 0 0 0 0 0) false (retBody s w) d

/-! ## JMP (R130, R138) -/

def jmpBody (s : Nat) (w : VWord) (d : Device) : Device :=
  let z := d.seqOf s
  if w.a = 0 then gotoBlock s w.t.toNat (spend s 1 false d)
  else if w.a = 1 then
    let j : Jump := { input := w.b.toNat % 8, neg := bit w.b.toNat 3, target := w.t.toNat, splice := w.mode }
    nextBlock s (spend s 1 false (d.setSeq s { z with jump := some j }))
  else nextBlock s (spend s 1 false (d.setSeq s { z with jump := none }))

/-- The operands of a JMP form (R124). -/
def jmpOk (w : VWord) : Bool :=
  if w.a = 0 then flagsOk w false false false && fieldsOk w 0 0 0 all32 0
  else if w.a = 1 then flagsOk w true false false && fieldsOk w 1 0x0F 0 all32 0
  else w.a == 2 && flagsOk w false false false && fieldsOk w 2 0 0 0 0

def issueJmp (s : Nat) (w : VWord) (d : Device) : Device := issue s w false (jmpOk w) (w.a != 2) (jmpBody s w) d

/-! ## BIF (R132, R133) -/

/-- The fail window that a BIF here looks at: one further for each FWCLR that has not committed. -/
def issueWindow (d : Device) (s : Nat) : Nat :=
  let z := d.seqOf s
  z.window + (z.items.filter fun i => match i with
    | .effect _ (.capt a) _ _ => bit a 2
    | _ => false).length

/-- A condition that resolves at issue. -/
def bifTest (d : Device) (s c : Nat) : Bool :=
  if c < 8 then bit (d.seqFlags s) c
  else if c < 16 then d.condInput (d.leadQuad s) (c - 8)
  else if c < 32 then counterOf (d.seqCounters s) (c - 16) != 0
  else true

/-- The result of the vector before BIF FAIL has arrived. -/
def failKnown (d : Device) (s : Nat) : Bool := d.queuedVectors s == 0 && (d.seqOf s).flights.isEmpty

/-- A counted compare has failed in window `k`, as far as results go. -/
def windowFails (z : Seq) (k : Nat) : Bool := z.windowFail && z.resultWindow == k

def takeBranch (s : Nat) (taken : Bool) (t : Nat) (d : Device) : Device := if taken then gotoBlock s t d else nextBlock s d

def bifBody (s : Nat) (w : VWord) (d : Device) : Device :=
  let z := d.seqOf s
  let c := w.a.toNat
  let neg := bit w.b.toNat 0
  let d0 := if c = 0x21 then d else endEarly s d
  if c ≠ 0x20 then
    let r := d.bifTest s c
    let k := c - 16
    let d1 := if bit w.b.toNat 1 then setCounter s k (counterOf (d.seqCounters s) k - 1) d0 else d0
    takeBranch s (r != neg) w.t.toNat (spend s 1 false d1)
  else if d.failKnown s then takeBranch s (windowFails z (d.issueWindow s) != neg) w.t.toNat (spend s 1 false d0)
  else
    let k : Conditional :=
      { isMatch := false, splice := w.mode, predicted := w.pred, neg := neg, blk := z.next, target := w.t.toNat,
        iterations := 0, length := 0, judged := 0, failedIter := false, flag := 128, counter := 128,
        window := d.issueWindow s, upTo := z.vectors + d.queuedVectors s, owns := false, snap := d.snapOf s }
    let d1 := spend s 1 false d0
    let d2 := d1.setSeq s { d1.seqOf s with cond := some k }
    if w.mode then takeBranch s w.pred w.t.toNat d2 else stopIssue s d2

/-- A BIF on FAIL, a MATCH or a WAIT does not issue on a predicted path (R170). -/
def bifWaits (d : Device) (s : Nat) (w : VWord) : Bool := d.onPrediction s && w.a == 0x20

def issueBif (s : Nat) (w : VWord) (d : Device) : Device :=
  if d.bifWaits s w then d
  else issue s w false
    (flagsOk w true false true && fieldsOk w 0x3F 3 0 all32 0 && selectOk w.a.toNat &&
      (!(bit w.b.toNat 1) || selectCounter w.a.toNat)) true (bifBody s w) d

/-! ## MATCH (R134, R136, R165) -/

/-- The outcome flag and counter of a MATCH (R136). -/
def matchOutcome (s flag counter : Nat) (found : Bool) (count : Nat) (d : Device) : Device :=
  let d1 := if flag < 128 then setFlag s (flag % 8) found d else d
  if counter < 128 then setCounter s (counter % 16) count d1 else d1

def matchBody (s : Nat) (w : VWord) (d0 : Device) : Device :=
  let d := endEarly s d0
  let z := d.seqOf s
  let n := w.n.toNat
  let l := w.x.toNat
  if n = 0 ∨ l = 0 then
    let d1 := matchOutcome s w.a.toNat w.b.toNat false 0 d
    nextBlock s (spend s 1 false (if w.mode then noOverrun s d1 else d1))
  else
    let own := !(d.isCaptured s z.next) && !(d.blockResident s z.next true)
    match (if own then d.captureShort s z.next (z.next + 1) else none) with
    | some q => issueErrorAt s haltPayload causeCaptureSpace q d
    | none =>
      let d1 := if own then beginCapture s z.next (z.next + 1) d else d
      let k : Conditional :=
        { isMatch := true, splice := w.mode, predicted := false, neg := false, blk := z.next, target := z.next + 1,
          iterations := n, length := l, judged := 0, failedIter := false, flag := w.a.toNat, counter := w.b.toNat,
          window := 0, upTo := z.vectors + d.queuedVectors s, owns := own, snap := d.snapOf s }
      let d2 := pushVectors s (if w.mode then n * l else l) l l false none d1
      let d3 := spend s (ceilDiv l 8) true d2
      nextBlock s (d3.setSeq s { d3.seqOf s with cond := some k })

def issueMatch (s : Nat) (w : VWord) (d : Device) : Device :=
  if d.onPrediction s then d
  else issue s w (w.x != 0) (flagsOk w true false false && fieldsOk w 0x87 0x8F all32 0 0xFFFF) false (matchBody s w) d

/-! ## WAIT, HALT and the blocks whose effect rides on the boundary (R137, R141 to R144) -/

def waitBody (s : Nat) (w : VWord) (d : Device) : Device :=
  stopIssue s (effectBlock s
    (.wait (w.a.toNat % 8) (bit w.b.toNat 0) (bit w.b.toNat 1) w.n.toNat w.x.toNat) (endEarly s d))

def issueWait (s : Nat) (w : VWord) (d : Device) : Device :=
  if d.onPrediction s then d
  else issue s w false (flagsOk w false false false && fieldsOk w 7 3 all32 0 0x87) false (waitBody s w) d

def haltBody (s : Nat) (w : VWord) (d : Device) : Device :=
  let d1 := stopIssue s (effectBlock s (.halt w.a.toNat) d)
  d1.setSeq s { d1.seqOf s with jump := none }

def issueHalt (s : Nat) (w : VWord) (d : Device) : Device :=
  issue s w false (flagsOk w false false false && fieldsOk w 0xFF 0 0 0 0) false (haltBody s w) d

def issueTset (s : Nat) (w : VWord) (d : Device) : Device :=
  issue s w false (flagsOk w false false false && fieldsOk w 0x3F 0 0 0 0) false (effectBlock s (.tset w.a.toNat)) d

def issueLset (s : Nat) (w : VWord) (d : Device) : Device :=
  issue s w false (flagsOk w false false false && fieldsOk w 0x0F 0 0 0 0) false (effectBlock s (.lset w.a.toNat)) d

def issueSignal (s : Nat) (w : VWord) (d : Device) : Device :=
  issue s w false (flagsOk w false false false && fieldsOk w 0x1F 3 0 0 0 && w.b != 3) false
    (effectBlock s (.signal w.a.toNat w.b.toNat)) d

def issueCapt (s : Nat) (w : VWord) (d : Device) : Device :=
  issue s w false (flagsOk w false false false && fieldsOk w 0x1F 0 0 0 0 && bitf w.a.toNat 3 2 != 3) false
    (effectBlock s (.capt w.a.toNat)) d

/-- An opcode that R124 does not list; one that it lists stands for no illegal opcode and changes nothing. -/
def issueIllegal (s : Nat) (opc : Nat) (w : VWord) (d : Device) : Device :=
  if 1 ≤ opc ∧ opc ≤ 15 then d else issue s w false true false (issueError s haltOpcode 0) d

end Device

/-! ## Meanings -/

open Device

/-- VEC (R125). -/
def execVec (s : Site) (w : VWord) (st : State) : Host.Outcome State Fault Refusal := nextDev st (issueVec s.val w st.dev)

/-- RPT (R126). -/
def execRpt (s : Site) (w : VWord) (st : State) : Host.Outcome State Fault Refusal := nextDev st (issueRpt s.val w st.dev)

/-- LOOP (R128, R164, R165). -/
def execLoop (s : Site) (w : VWord) (st : State) : Host.Outcome State Fault Refusal := nextDev st (issueLoop s.val w st.dev)

/-- ENDL (R128). -/
def execEndl (s : Site) (w : VWord) (st : State) : Host.Outcome State Fault Refusal := nextDev st (issueEndl s.val w st.dev)

/-- CALL (R129, R164 to R166). -/
def execCall (s : Site) (w : VWord) (st : State) : Host.Outcome State Fault Refusal := nextDev st (issueCall s.val w st.dev)

/-- RET (R129). -/
def execRet (s : Site) (w : VWord) (st : State) : Host.Outcome State Fault Refusal := nextDev st (issueRet s.val w st.dev)

/-- JMP (R130): the word's form decides; a form that R124 does not list halts the site. -/
def execJmp (s : Site) (w : VWord) (st : State) : Host.Outcome State Fault Refusal := nextDev st (issueJmp s.val w st.dev)

/-- JMP form 1 (R138). -/
def execJmpArm (s : Site) (w : VWord) (st : State) : Host.Outcome State Fault Refusal :=
  nextDev st (issueJmp s.val { w with a := 1 } st.dev)

/-- JMP form 2 (R138). -/
def execJmpDisarm (s : Site) (w : VWord) (st : State) : Host.Outcome State Fault Refusal :=
  nextDev st (issueJmp s.val { w with a := 2 } st.dev)

/-- BIF (R132, R133). -/
def execBif (s : Site) (w : VWord) (st : State) : Host.Outcome State Fault Refusal := nextDev st (issueBif s.val w st.dev)

/-- MATCH (R134 to R136). -/
def execMatchBlock (s : Site) (w : VWord) (st : State) : Host.Outcome State Fault Refusal :=
  nextDev st (issueMatch s.val w st.dev)

/-- TSET (R141). -/
def execTset (s : Site) (w : VWord) (st : State) : Host.Outcome State Fault Refusal := nextDev st (issueTset s.val w st.dev)

/-- LSET (R141). -/
def execLset (s : Site) (w : VWord) (st : State) : Host.Outcome State Fault Refusal := nextDev st (issueLset s.val w st.dev)

/-- WAIT (R137). -/
def execWait (s : Site) (w : VWord) (st : State) : Host.Outcome State Fault Refusal := nextDev st (issueWait s.val w st.dev)

/-- SIGNAL pulse (R142). A form that R124 does not list halts the site. -/
def execSignalPulse (s : Site) (w : VWord) (st : State) : Host.Outcome State Fault Refusal :=
  nextDev st (issueSignal s.val w st.dev)

/-- SIGNAL set (R142). -/
def execSignalSet (s : Site) (w : VWord) (st : State) : Host.Outcome State Fault Refusal :=
  nextDev st (issueSignal s.val { w with b := 1 } st.dev)

/-- SIGNAL clear (R142). -/
def execSignalClear (s : Site) (w : VWord) (st : State) : Host.Outcome State Fault Refusal :=
  nextDev st (issueSignal s.val { w with b := 2 } st.dev)

/-- CAPT with ARM (R143). -/
def execCaptArm (s : Site) (w : VWord) (st : State) : Host.Outcome State Fault Refusal :=
  nextDev st (issueCapt s.val { w with a := w.a ||| 1 } st.dev)

/-- CAPT with ACQ (R143). -/
def execCaptAcq (s : Site) (w : VWord) (st : State) : Host.Outcome State Fault Refusal :=
  nextDev st (issueCapt s.val { w with a := w.a ||| 2 } st.dev)

/-- CAPT with FWCLR (R143). -/
def execCaptFwclr (s : Site) (w : VWord) (st : State) : Host.Outcome State Fault Refusal :=
  nextDev st (issueCapt s.val { w with a := w.a ||| 4 } st.dev)

/-- CAPT with a LOG field (R143). -/
def execCaptLog (s : Site) (w : VWord) (st : State) : Host.Outcome State Fault Refusal := nextDev st (issueCapt s.val w st.dev)

/-- HALT (R144). -/
def execHalt (s : Site) (w : VWord) (st : State) : Host.Outcome State Fault Refusal := nextDev st (issueHalt s.val w st.dev)

/-- An opcode outside the table of R124. -/
def execIllegalOpcode (s : Site) (opc : BitVec 8) (w : VWord) (st : State) : Host.Outcome State Fault Refusal :=
  nextDev st (issueIllegal s.val opc.toNat w st.dev)

end Sys2Proof.Machine
end

