-- ==== Sys2Proof/Machine/Pattern.lean ====
section
/-!
DEFINITION. The vector sequencer at the pins (chapters 05 and 06): vectors and effects at their boundaries (R121, R155),
holds (R156), compare results (R157), conditionals (R170 to R174), event jumps (R139, R140, R175), stalls and underruns
(R176 to R179), and how a pattern starts and ends (R120, R144, R145).
-/
namespace Sys2Proof.Machine

/-- A HALT. -/
def Effect.isHalt : Effect → Bool
  | .halt _ => true
  | _ => false

def Item.onSpec : Item → Bool
  | .vectors p => p.spec
  | .effect _ _ s _ => s

/-- The vector is a jump point (R125, R134). -/
def Play.jumpPoint (p : Play) : Bool :=
  let k := p.done + 1
  k == p.total || (p.iter != 0 && k % p.iter == 0) || (p.interval != 0 && k % p.interval == 0)

/-- A list of numbers without repeats. -/
def distinct : List Nat → List Nat
  | [] => []
  | x :: l => if l.contains x then distinct l else x :: distinct l

namespace Device

/-! ## Squashing and ending (R121, R144, R145) -/

/-- Every uncommitted vector is squashed. -/
def squashAll (s : Nat) (d : Device) : Device := squashTo s [] (d.seqOf s).items d

/-- A pending jump request is discarded (R140). -/
def discardRequest (s : Nat) (d : Device) : Device :=
  let z := d.seqOf s
  if z.request.isSome then (d.setSeq s { z with request := none }).addSat (quadIx (d.leadQuad s)) 0x6E 4 1 else d

/-- A stall's hold ends in cycle `c`: its time is counted and logged (R179). -/
def endStall (s c : Nat) (d : Device) : Device :=
  let z := d.seqOf s
  match z.hold with
  | .stall since cause => logAfter s z.vectors (logWord 4 cause 0 z.vectors (c - since)) (d.addWrap (siteIx s) 0x11 8 (c - since))
  | _ => d

/-- The pattern stops with a halt reason: issue stops, uncommitted vectors are squashed, committed ones are driven (R145). `back`:
the issue-time effects return to their values at the squash point (R121), as they do unless the stop is that of the instruction
which issue has come to. -/
def cutIssue (s reason : Nat) (back : Bool) (d : Device) : Device :=
  let z := d.seqOf s
  if z.phase ≠ .preload ∧ z.phase ≠ .play then d
  else
    let d1 := squashAll s (endStall s (z.boundaryPs / 1000) d)
    let d2 := discardRequest s (if back then restoreSnap s z.lastSnap d1 else d1)
    let y := d2.seqOf s
    settleSeq s (d2.setSeq s
      { y with phase := .ending, issuing := false, cond := none, hold := .none, jump := none, arm := none,
               reason := reason, code := 0,
               haltPs := if z.phase = .play then z.boundaryPs else d.cycle * 1000 })

/-- The pattern is stopped from outside what it has issued (R145). -/
def stopPattern (s reason : Nat) (d : Device) : Device := cutIssue s reason true d

/-- The HALT of block `code` at the boundary (R144). -/
def haltPattern (s code : Nat) (d : Device) : Device :=
  let d1 := cutIssue s haltHalt false d
  d1.setSeq s { d1.seqOf s with code := code }

/-- What the end of a pattern discards (R167) at each site quad. -/
def dropStream (q : Nat) (d : Device) : Device :=
  ((d.setStream q Stream.init).w (quadIx q) 0x7C 0).w (quadIx q) 0x7D 0

/-- The result of a RUN-PATTERN step whose pattern has ended (R194). -/
def patternResult (d : Device) (s : Nat) : Nat :=
  let f := d.flowOf s
  let z := d.seqOf s
  let low := recLow f.record
  let high := recHigh f.record
  if f.result ≠ 0 then f.result
  else if f.limitHit then resFailLimit
  else if z.reason = haltUnderrun then resUnderrun
  else if z.reason = haltPoisoned then resPoisoned
  else if z.reason ≠ haltHalt then resHaltError
  else if low ≤ (z.code : Int) ∧ (z.code : Int) ≤ high ∧ (d.stepFails s = 0 ∨ bit (recFlags f.record) 0 = true) then resPass
  else resFail

/-- In an orderly stop the DPS channels ramp down once every channel has parked (R383). -/
def settleStop (d : Device) : Device :=
  if d.o 0x1300 0x12 = 1 ∧ ((List.range 128).all fun s => (d.seqOf s).phase == .off) = true then beginRank 64 d else d

/-- In an orderly stop the site's channels park when its pattern has ended (R383). -/
def stopPark (s : Nat) (d : Device) : Device :=
  if d.o 0x1300 0x12 = 1 then settleStop (parkChans (d.siteChans s) d) else d

/-- The pattern ends (R144): halt reason and code, run time, lines released, streams discarded; the flow's step completes
and its grants are released (R192). -/
def endPattern (s : Nat) (d : Device) : Device :=
  let z := d.seqOf s
  let ran := if z.startPs = 0 then 0 else d.cycle - (z.startPs + 16000) / 1000
  let code := patternResult d s
  let d1 := releaseLines s (wQuads s 0x74 ran (wQuads s 0x62 z.code (wQuads s 0x61 z.reason d)))
  let d2 := each dropStream (d1.siteQuads s) d1
  let d3 := releaseLog s (d2.setSeq s { d2.seqOf s with phase := .off, flights := [], captures := [] })
  let d4 := settleSeq s d3
  stopPark s (if d4.runsStep s opRunPattern then closeLog s (finishStep s code (releaseGrants s d4)) else releaseGrants s d4)

/-- The pattern has ended when its last boundary is at the plane and every result has arrived (R144). -/
def patternEndOp (s : Nat) (d : Device) : Device :=
  let z := d.seqOf s
  if z.phase = .ending ∧ z.flights = [] ∧ z.haltPs + 16000 ≤ 1000 * d.cycle then endPattern s d else d

/-- REFCLK loss and a hard trip end the pattern at once (R26, R145, R384). -/
def cutPattern (s reason : Nat) (d : Device) : Device :=
  if (d.seqOf s).phase = .off then d
  else
    let d1 := stopPattern s reason d
    endPattern s (d1.setSeq s { d1.seqOf s with reason := reason, code := 0 })

/-! ## Holds (R156) -/

/-- Conditional hold time in ps is counted in whole ns (0x2400+s.17). -/
def countHold (s ps : Nat) (d : Device) : Device :=
  let z := d.seqOf s
  let sum := z.holdPs + ps
  (d.setSeq s { z with holdPs := sum % 1000 }).addWrap (siteIx s) 0x17 8 (sum / 1000)

/-- One hold vector: every channel repeats its state (R156). `counts`: it is conditional hold time (R180). -/
def holdVector (s : Nat) (counts : Bool) (d0 : Device) : Device :=
  let z := d0.seqOf s
  let d := each (fun n e => playState n 7 (planeStart z.boundaryPs) true e) (d0.siteChans s) d0
  let p := d.quadPeriod (d.leadQuad s)
  let d1 := addQuads s 0x7F 8 1 (d.setSeq s { z with boundaryPs := z.boundaryPs + p })
  if counts then countHold s p d1 else d1

/-! ## Stalls and underruns (R176 to R179) -/

/-- STALL-UNDERRUN of each tile that holds one of the quads. -/
def raiseStall (quads : List Nat) (d : Device) : Device :=
  each (fun t e => e.raise (tileSource t 2)) (distinct (quads.map fun q => q / 16)) d

def recordCauses : List (Nat × Nat) → Device → Device
  | [], d => d
  | (q, c) :: l, d => recordCauses l (d.w (quadIx q) 0x77 c)

/-- A stall begins at a mark's boundary in cycle `c`. -/
def beginStall (s c : Nat) (short : List (Nat × Nat)) (d : Device) : Device :=
  let cause := (short.headD (0, 1)).2
  let z := d.seqOf s
  let d0 := (d.addSat (siteIx s) 0x10 4 1).w (siteIx s) 0x12 z.vectors
  let d1 := recordCauses short (d0.setSeq s { z with hold := .stall c cause, stalls := z.stalls + 1 })
  raiseStall (short.map Prod.fst) (if cause = 2 then d1.addSat (quadIx (d.leadQuad s)) 0x72 4 1 else d1)

/-- The data that issue needs is at quad `q`: of the sections issued, the header of the first that is not in decode and all of the
others, and the next header. -/
def dataPresent (d : Device) (s q : Nat) : Bool :=
  let z := d.seqOf s
  let x := d.streamOf q
  (x.decoded.all fun y => y.ready x.fetched == y.vecs.length) &&
  match (z.items.filterMap Item.section?)[x.decoded.length]? with
  | some p => d.sectionPresent s q p (d.sectionStart s q p.blk + 32)
  | none => q != d.leadQuad s || d.headerPresent s

/-- The quads that are short, with their causes; the lead with cause ISSUE when every quad has its data (R179). -/
def shortQuads (d : Device) (s : Nat) : List (Nat × Nat) :=
  match (d.siteQuads s).filter fun q => !(d.dataPresent s q) with
  | [] => [(d.leadQuad s, 2)]
  | l => l.map fun q => (q, d.shortCause q)

/-- The boundary at the commit point is a stall-safe mark (R123, R178). -/
def atMark (d : Device) (s : Nat) : Bool :=
  let z := d.seqOf s
  match z.items.filterMap Item.plays? with
  | p :: _ => p.mark && p.done == 0
  | [] => z.nextMark || (decide (z.next < z.blocks) && bit (d.headerByte s z.next 1) 2)

/-- The commit point needs a vector that is not there (R178). -/
def underrun (s c : Nat) (d : Device) : Device :=
  let short := d.shortQuads s
  if d.stallPolicy s = 0 ∧ d.atMark s = true then holdVector s false (beginStall s c short d)
  else
    let issue := short.any fun p => p.2 == 2
    let d1 := raiseStall (short.map Prod.fst) (recordCauses short d)
    stopPattern s haltUnderrun (if issue then d1.addSat (quadIx (d.leadQuad s)) 0x72 4 1 else d1)

/-- The sequencer has come to a block that it does not issue while a SPLICE conditional is unresolved (R170). -/
def predictionEnds (d : Device) (s : Nat) : Bool :=
  let z := d.seqOf s
  let opc := d.headerByte s z.next 0
  d.onPrediction s && decide (z.next < z.blocks) &&
  (opc == 9 || opc == 12 || (opc == 8 && d.headerByte s z.next 2 == 0x20))

/-- What waits at the front is a HALT, an error or the end of a MATCH's iterations. -/
def frontWaits (z : Seq) : Bool :=
  match z.items with
  | .effect _ e _ _ :: _ => e.isHalt
  | .vectors p :: _ => p.done == p.total
  | [] => false

/-- No vector can commit at this boundary: a conditional's hold, a gap, or an underrun. -/
def shortage (s c : Nat) (d : Device) : Device :=
  let z := d.seqOf s
  if z.cond.isSome && (condBlocks z && z.items.all (fun i => (i.plays?.map fun p => p.done == p.total).getD true) ||
      frontWaits z || (z.items.isEmpty && (d.predictionEnds s || !z.issuing))) then
    holdVector s true (d.setSeq s { z with hold := .result })
  else if c < z.gapEnd then holdVector s z.gapCounts d
  else underrun s c d

/-! ## Vectors at the commit point (R127, R155, R157) -/

/-- The states of vector `i` of the block at quad `q`. -/
def vectorAt (d : Device) (q : Nat) (p : Play) : QVector :=
  match p.uniform with
  | some k => ⟨k * (1 + 8 + 64 + 512), 0⟩
  | none =>
    match (d.streamOf q).decoded with
    | x :: _ => x.vecs.getD p.sectionIndex ⟨0xFFF, 0⟩
    | [] => ⟨0xFFF, 0⟩

/-- The state of channel `n` in a vector, K as the kept state (R127). -/
def keptState (d : Device) (n : Nat) (v : QVector) : Nat :=
  let code := bitf v.states (3 * (n % 4)) 3
  if code = 7 then (d.pinOf n).code else code

/-- The compare that channel `n` makes in a vector starting at `start` at the plane, unless it is masked (R96, R105, R106, R161). -/
def compareOf (d : Device) (start n : Nat) (v : QVector) : Option Strobe :=
  let kept := d.keptState n v
  let set := d.timingSet (n / 4)
  let t (i : Nat) : Nat := start + timeEdge set (n % 4) i + d.fixtureCompare n
  if decide (2 ≤ kept) && decide (kept ≤ 4) && !(bit v.mask (n % 4)) then
    some { chan := n, code := kept, mode := timeStrobeMode set (n % 4), first := t 4, second := t 5, deskew := d.oi (chanIx n) 0x1A }
  else none

/-- The compares of the vector that the site plays next (R96). -/
def vectorStrobes (d : Device) (s : Nat) (p : Play) : List Strobe :=
  (d.siteChans s).filterMap fun n => d.compareOf (planeStart (d.seqOf s).boundaryPs) n (d.vectorAt (n / 4) p)

/-- The latest strobe of a vector (R157). -/
def lastOf (l : List Strobe) : Nat := l.foldl (fun m x => max m (if x.mode = 0 then x.first else max x.first x.second)) 0

/-- The result cycle of a vector that commits in cycle `c` (R157). -/
def resultCycle (c : Nat) (l : List Strobe) : Nat := if l.isEmpty then c + 160 else max (c + 160) (lastOf l / 4000 + 133)

def playQuad (start : Nat) (v : QVector) (q : Nat) (d : Device) : Device :=
  each (fun n e => playState n (bitf v.states (3 * (n % 4)) 3) start false e) (quadChans q) d

/-- The first decoded section of every quad is spent. -/
def popDecoded (s : Nat) (d : Device) : Device :=
  each (fun q e => e.setStream q { e.streamOf q with decoded := (e.streamOf q).decoded.drop 1 }) (d.siteQuads s) d

/-- The block is spent: it leaves the run-ahead with its decoded section. -/
def finishPlay (s : Nat) (p : Play) (rest : List Item) (d : Device) : Device :=
  let d1 := d.setSeq s { d.seqOf s with items := rest }
  if p.uniform.isNone then popDecoded s d1 else d1

/-- One vector commits in cycle `c`. -/
def playVector (s c : Nat) (p : Play) (rest : List Item) (d : Device) : Device :=
  let z := d.seqOf s
  let k := p.done + 1
  let strobes := d.vectorStrobes s p
  let f : Flight :=
    { number := z.vectors, commit := c, due := resultCycle c strobes, blk := p.blk, strobes := strobes,
      inMatch := p.iter != 0, ends := p.iter != 0 && k % p.iter == 0, window := z.window, log := z.logOn }
  let jp := p.jumpPoint
  let waits := jp && (decide (k < p.total) && p.wait || k == p.total && (match z.jump with
    | some j => !j.splice
    | none => false))
  let p1 := if waits then { p with done := k, base := k, ready := c + 1 + issueLatency, early := 0 } else { p with done := k }
  let keep := decide (k < p.total) || (p.iter != 0 && (match z.cond with
    | some x => x.isMatch
    | none => false))
  let first := decide (z.vectors = 0)
  let d0 := each (fun q e => playQuad (planeStart z.boundaryPs) (d.vectorAt q p) q e) (d.siteQuads s) d
  let d1 := if first then wQuads s 0x73 ((z.boundaryPs + 16000) / 1000 - (d.flowOf s).beginCycle) d0 else d0
  let d2 := d1.setSeq s
    { z with items := .vectors p1 :: rest, flights := z.flights ++ [f], vectors := z.vectors + 1,
             boundaryPs := z.boundaryPs + d.quadPeriod (d.leadQuad s), hold := .none,
             startPs := if first then z.boundaryPs else z.startPs,
             issueFree := if waits then max z.issueFree (c + 1) else z.issueFree,
             lastJump := if jp then some c else none, lastSnap := p.snap,
             gapEnd := if waits then c + 1 + issueLatency else z.gapEnd, gapCounts := waits || z.gapCounts }
  let d3 := if keep then d2 else finishPlay s p rest d2
  wQuads s 0x64 (z.vectors + 1) (wQuads s 0x63 p.blk d3)

/-! ## Effects at the commit point (R121) -/

/-- What CAPT does when its boundary passes (R143). -/
def captAt (s a : Nat) (d : Device) : Device :=
  let armed := (d.siteChans s).filter fun n => bit (d.o (quadIx (n / 4)) 0x6B) (n % 4)
  let d1 := if bit a 0 then each armTmu armed d else d
  let d2 := if bit a 1 then siteTrigger s d1 else d1
  let d3 := if bit a 2 then d2.setSeq s { d2.seqOf s with window := (d2.seqOf s).window + 1 } else d2
  let log := bitf a 3 2
  if log = 0 then d3 else d3.setSeq s { d3.seqOf s with logOn := log == 1 }

/-- An effect at the boundary in cycle `c`; the items after it stand in the run-ahead. -/
def commitEffect (s c blk : Nat) (e : Effect) (d : Device) : Device :=
  let z := d.seqOf s
  let d1 := wQuads s 0x63 blk d
  match e with
  | .tset k => wQuads s 0x1D k d1
  | .lset k => each (fun q x => levelStrobe q (some k) x) (d.siteQuads s) d1
  | .signal l op =>
    { d1 with sites := { d1.sites with signals := d1.sites.signals ++ [⟨(z.boundaryPs + 16000) / 1000, s, l, op⟩] } }
  | .capt a => captAt s a d1
  | .wait i neg edge n f => setSiteState (markSnap s (d1.setSeq s { z with hold := .wait c i neg edge n f })) s siteWaiting
  | .halt code => haltPattern s code d1
  | .error reason cause quad =>
    let d2 := if quad < 128 then d1.w (quadIx (d.leadQuad s)) 0x75 quad else d1
    cutIssue s reason false (if cause = 0 then d2 else d2.w (quadIx (if quad < 128 then quad else d.leadQuad s)) 0x76 cause)
  | .stallMark =>
    match z.arm with
    | some (_, l) => markSnap s (beginStall s c l d1)
    | none => d1.setSeq s { z with issuing := true }
  | .captureMark _ => d1
  | .jumpMark => d1

def setItems (s : Nat) (l : List Item) (d : Device) : Device := d.setSeq s { d.seqOf s with items := l }

/-- The effects before the next vector, up to one that ends the play or cannot commit yet. A HALT on the path that an unresolved
conditional predicts waits for its resolution; an error there halts the site as its boundary comes (R122). An effect acts at the
first boundary that the play reaches behind what comes before it, also where hold vectors follow there before the next vector: a
TSET then gives them its period (DESIGN CHOICE, log entry 105). -/
def takeEffects (s c : Nat) : List Item → Device → Device
  | [], d => setItems s [] d
  | .vectors p :: l, d => setItems s (.vectors p :: l) d
  | .effect b e sp r :: l, d =>
    if decide (c < r) || (e.isHalt && sp) then setItems s (.effect b e sp r :: l) d
    else if e.stops then commitEffect s c b e (setItems s l d)
    else takeEffects s c l (commitEffect s c b e d)

/-- The vector in front can commit in cycle `c`: it has been issued and decoded (R146, R154, R162). -/
def canPlay (d : Device) (s c : Nat) (p : Play) : Bool :=
  decide (p.done < p.total) && decide ((d.seqOf s).resumeAt ≤ c) &&
  (decide (p.done < p.early) || decide (p.ready + cyclesTo p.iter (p.done - p.base) ≤ c)) &&
  (p.uniform.isSome || (d.siteQuads s).all fun q =>
    match (d.streamOf q).decoded with
    | x :: _ => decide (p.sectionIndex < x.ready (d.streamOf q).fetched)
    | [] => false)

/-- The boundary behind the jump point of a SPLICE event jump whose target has been issued. -/
def jumpAtFront (z : Seq) : Bool :=
  match z.items with
  | .effect _ .jumpMark _ _ :: _ => true
  | _ => false

/-- A registered jump request is due at the last vector committed (R139). -/
def jumpDue (z : Seq) : Bool :=
  jumpAtFront z ||
  match z.request, z.lastJump with
  | some (r, _), some c => decide (r + issueLatency ≤ c)
  | _, _ => false

/-- After the effects at the boundary: a vector, a hold vector, or nothing when the pattern has ended. -/
def playFront (s c : Nat) (d : Device) : Device :=
  let z := d.seqOf s
  if z.phase ≠ .play then d
  else match z.hold with
    | .wait _ _ _ _ _ _ => holdVector s false d
    | .stall _ _ => holdVector s false d
    | _ =>
      match z.items with
      | .vectors p :: rest => if d.canPlay s c p then playVector s c p rest d else shortage s c d
      | _ => shortage s c d

/-- The next vector boundary passes the commit point (R102, R103, R121, R155). A due event jump comes first. -/
def vectorCommitOp (s : Nat) (d : Device) : Device :=
  let z := d.seqOf s
  let c := z.boundaryPs / 1000
  if z.phase ≠ .play ∨ d.cycle < c ∨ jumpDue z = true ∨ d.failed = true then d
  else
    let d1 := each timingBoundary (d.siteQuads s) d
    let d2 := match z.hold with
      | .wait _ _ _ _ _ _ => d1
      | .stall _ _ => d1
      | _ => takeEffects s c z.items d1
    settleSeq s (chooseJump s (playFront s c d2))

/-! ## Resuming after a hold (R137, R171, R173) -/

/-- Issue resumes in this cycle, and a hold ends with it, a stall's too (R179); until the first vector is through, the pins play
K. -/
def resumeIssue (s : Nat) (counts : Bool) (d0 : Device) : Device :=
  let d := endStall s ((d0.seqOf s).boundaryPs / 1000) d0
  let z := d.seqOf s
  d.setSeq s { z with issuing := true, issueFree := d.cycle, backdate := false, hold := .none,
                      gapEnd := d.cycle + issueLatency, gapCounts := counts }

/-- A WAIT's hold ends (R137): the site is RUNNING again and issue goes on. -/
def endWait (s : Nat) (d : Device) : Device := settleSeq s (markSnap s (resumeIssue s false (setSiteState d s siteRunning)))

/-- The WAIT's timeout flag, unless it has none. -/
def waitFlag (s f : Nat) (v : Bool) (d : Device) : Device := if f < 128 then setFlag s (f % 8) v d else d

/-- The condition of the hold is met (R137). -/
def waitMetOp (s : Nat) (d : Device) : Device :=
  match (d.seqOf s).hold with
  | .wait since i neg edge _ f =>
    let q := d.leadQuad s
    let met := if edge then decide (since < d.cycle) && d.condEdge q i neg else d.condInput q i == !neg
    if decide (since ≤ d.cycle) && met then endWait s (waitFlag s f false d) else d
  | _ => d

/-- The timeout of the hold (R137). -/
def waitTimeoutOp (s : Nat) (d : Device) : Device :=
  match (d.seqOf s).hold with
  | .wait since _ _ _ n f => if n ≠ 0 ∧ since + n ≤ d.cycle then endWait s (waitFlag s f true d) else d
  | _ => d

/-! ## Results (R157) -/

/-- After a splice: the alternate path issues now, from the splice buffer's 384 vectors first (R172, R173). -/
def beginSplice (s order : Nat) (d : Device) : Device :=
  let z := d.seqOf s
  resumeIssue s true (d.setSeq s { z with earlyLeft := spliceSize, earlyNext := order, earlyLoops := z.loops.length,
                                          earlyCalls := z.calls.length })

/-- A SPLICE BIF predicted wrongly (R172, R174): the issue-time state returns to that of the splice point, which is the one after
the BIF as long as no vector of the predicted path has committed. The alternate path goes on at its block, by a redirect where the
predicted path's have left that block behind (R168). -/
def mispredict (s : Nat) (k : Conditional) (value : Bool) (d : Device) : Device :=
  let z := d.seqOf s
  let over_ := z.vectors - k.upTo
  let d1 := squashTo s (z.items.filter fun i => !i.onSpec) (z.items.filter Item.onSpec) d
  let d2 := restoreSnap s (if over_ = 0 then k.snap else z.lastSnap) d1
  let d3 := (beginSplice s k.snap.order d2).addSat (siteIx s) 0x16 4 1
  let d4 := logAfter s z.vectors (logWord 3 0 over_ z.vectors (z.boundaryPs / 1000)) d3
  gotoBlock s (if value then k.target else k.blk + 1) (d4.setSeq s { d4.seqOf s with cond := none })

/-- The result of the vector before a BIF FAIL resolves it (R133, R171, R172). -/
def resolveBif (s : Nat) (k : Conditional) (d : Device) : Device :=
  let z := d.seqOf s
  let value := windowFails z k.window != k.neg
  if k.splice then
    if value = k.predicted then d.setSeq s { z with cond := none, items := z.items.map Item.confirmed }
    else mispredict s k value d
  else
    let d1 := resumeIssue s true (d.setSeq s { z with cond := none })
    takeBranch s value k.target (d1.setSeq s { d1.seqOf s with next := k.blk })

/-- The overrun of a SPLICE MATCH (R174). -/
def reportOverrun (s n : Nat) (f : Flight) (d : Device) : Device :=
  let d1 := ((d.addSat (siteIx s) 0x13 4 1).w (siteIx s) 0x14 (min n 0xFFFF)).w (siteIx s) 0x15
    (max (d.o (siteIx s) 0x15) (min n 0xFFFF))
  let d2 := logRecord s (logWord 2 0 n f.number f.commit) d1
  if d.act (siteIx s) 0x0C < n then d2.raise (tileSource (d.leadQuad s / 16) 3) else d2

/-- The MATCH block in the run-ahead is cut after `n` vectors, and leaves if they have all committed. -/
def cutMatch (s n : Nat) (d : Device) : Device :=
  let z := d.seqOf s
  match z.items with
  | .vectors p :: rest =>
    let gone := Item.squashed d.cycle (.vectors p) - (n - p.done)
    let d1 := addQuads s 0x7B 8 gone (setItems s (.vectors { p with total := n } :: rest) d)
    if p.done = n then finishPlay s p rest d1 else d1
  | _ => d

/-- The MATCH ends after iteration `count` (R136): outcome, capture released, and the block after it issues. -/
def endMatch (s : Nat) (k : Conditional) (found : Bool) (count : Nat) (d : Device) : Device :=
  let d1 := matchOutcome s k.flag k.counter found count (d.setSeq s { d.seqOf s with cond := none })
  let d2 := if k.owns then endCapture s d1 else d1
  markSnap s (if k.splice then beginSplice s (d2.seqOf s).streamNext d2 else resumeIssue s true d2)

/-- The MATCH block whose iterations are judged. -/
def matchPlay (z : Seq) : Option Play := (z.items.filterMap Item.plays?).head?

/-- The last result of an iteration (R134, R171, R172). -/
def judgeIteration (s : Nat) (k : Conditional) (f : Flight) (failed : Bool) (d : Device) : Device :=
  let m := k.judged + 1
  match matchPlay (d.seqOf s) with
  | none => d
  | some p =>
    if !failed then
      if k.splice then
        let n := ceilDiv p.done k.length * k.length
        endMatch s k true m (reportOverrun s (n / k.length - m) f (cutMatch s n d))
      else endMatch s k true m (cutMatch s p.done d)
    else if m = k.iterations then
      let d1 := cutMatch s p.total d
      endMatch s k false m (if k.splice then noOverrun s d1 else d1)
    else
      let k1 := { k with judged := m, failedIter := false }
      if k.splice then d.setSeq s { d.seqOf s with cond := some k1 }
      else
        let p1 := { p with total := p.total + k.length, base := p.done, ready := d.cycle + issueLatency }
        let z := d.seqOf s
        d.setSeq s { z with cond := some k1, items := .vectors p1 :: z.items.drop 1, hold := .none,
                            gapEnd := d.cycle + issueLatency, gapCounts := true }

/-- A result of a vector in a MATCH body decides the match only (R135). -/
def judgeMatch (s : Nat) (f : Flight) (fails : Nat) (d : Device) : Device :=
  let z := d.seqOf s
  match z.cond with
  | some k =>
    if k.isMatch && decide (k.upTo ≤ f.number) then
      let failed := k.failedIter || fails != 0
      if f.ends then judgeIteration s k f failed d
      else d.setSeq s { z with cond := some { k with failedIter := failed } }
    else d
  | none => d

/-- The fail limit is reached (R207). -/
def limitReached (s : Nat) (d : Device) : Device :=
  let f := d.flowOf s
  let l := d.act (siteIx s) 0x1E
  if l ≠ 0 ∧ l ≤ d.stepFails s ∧ f.limitHit = false ∧ d.runsStep s opRunPattern = true then
    stopPattern s haltStopped ((d.setFlow s { f with limitHit := true }).raise (clusterSource (d.hostCluster s) 1))
  else d

/-- A result of any other vector: the fail window, the counts, the first fail, the log and the limit (R132, R205 to R209). -/
def judgeVector (s : Nat) (f : Flight) (fails : Nat) (d : Device) : Device :=
  let z := d.seqOf s
  let fresh_ := decide (z.resultWindow < f.window)
  let d1 := d.setSeq s { z with resultWindow := max z.resultWindow f.window,
                                windowFail := (!fresh_ && z.windowFail) || fails != 0 }
  if fails = 0 then d1
  else
    let e := captureFirst s fails f (countFails s fails d1)
    limitReached s (if f.log then logFails s fails f e else e)

/-- The result of the vector before a BIF on FAIL resolves it, also where that vector lay in a MATCH body (R132, R133). -/
def settleBif (s number : Nat) (d : Device) : Device :=
  match (d.seqOf s).cond with
  | some k => if !k.isMatch && k.upTo == number + 1 then resolveBif s k d else d
  | none => d

/-- The site-combined results of the oldest vector under way arrive (R157), as its comparators decide at its strobes (R63, R65,
R96, R97). -/
def compareResultOp (s : Nat) (seen : List Seen) (d : Device) : Device :=
  match (d.seqOf s).flights with
  | [] => d
  | f :: rest =>
    if d.cycle < f.due then d
    else
      let fails := d.failMask f.strobes seen
      let d1 := d.fresh.setSeq s { d.seqOf s with flights := rest }
      let d2 := if f.inMatch then judgeMatch s f fails d1 else judgeVector s f fails d1
      settleSeq s (settleBif s f.number (releaseLog s d2))

/-! ## Event jumps (R138 to R140, R175) -/

/-- The cycle of the first boundary after the present cycle. -/
def nextBoundaryCycle (d : Device) (s : Nat) : Nat :=
  let z := d.seqOf s
  let p := d.quadPeriod (d.leadQuad s)
  (z.boundaryPs + ceilDiv (1000 * (d.cycle + 1) - z.boundaryPs) p * p) / 1000

/-- A triggering edge at the armed input registers a request; a second one is ignored and counted. A request of the preload
waits for the first boundary, whose cycle the start gives it. -/
def jumpRequestOp (s : Nat) (d : Device) : Device :=
  let z := d.seqOf s
  match (z.request.map Prod.snd).or z.jump with
  | none => d
  | some j =>
    if (z.phase ≠ .play ∧ z.phase ≠ .preload) ∨ d.condEdge (d.leadQuad s) j.input j.neg = false then d
    else if z.request.isSome then d.addSat (quadIx (d.leadQuad s)) 0x6E 4 1
    else settleSeq s (chooseJump s
      (d.setSeq s { z with request := some (if z.phase = .play then d.nextBoundaryCycle s else 0, j) }))

/-- The jump (R139): stacks emptied, later vectors squashed, play goes on at the target. The target issues from cycle `free`
on, which lies back if it was issued at the registration; a shortage before cycle `gap` is a hold. -/
def takeJump (s free : Nat) (back : Bool) (gap : Nat) (counts : Bool) (j : Jump) (d : Device) : Device :=
  let y := d.seqOf s
  let d1 := (if cutsMatch y then noOverrun s d else d).setSeq s
    { y with loops := [], calls := [], jump := none, request := none, cond := none, hold := .none, issuing := true,
             issueFree := free, backdate := back, lastJump := none, earlyLeft := 0, captures := [],
             gapEnd := gap, gapCounts := counts }
  let d2 := setSiteState (settleCapture s d1) s siteRunning
  settleSeq s (gotoBlock s j.target (d2.addSat (quadIx (d.leadQuad s)) 0x6D 4 1))

/-- The jump at a jump point that committed in cycle `c`: in SPLICE mode the target was issued at registration `r`, in WAIT
mode it issues now, behind 48 ns of hold vectors (R175). -/
def jumpAtPoint (s r c : Nat) (j : Jump) (d : Device) : Device :=
  let d1 := restoreSnap s (d.seqOf s).lastSnap (squashAll s d)
  if j.splice then takeJump s r true (d.seqOf s).gapEnd false j d1
  else takeJump s (c + 1) false (c + 1 + issueLatency) true j d1

/-- The jump point of a SPLICE event jump whose target has been issued has committed (R139). -/
def jumpTaken (s : Nat) (d : Device) : Device :=
  let z := d.seqOf s
  let d1 := d.setSeq s { z with items := z.items.drop 1, request := none, lastJump := none }
  settleSeq s (setSiteState (d1.addSat (quadIx (d.leadQuad s)) 0x6D 4 1) s siteRunning)

/-- The event jump at the chosen jump point; a WAIT's hold is one (R140). -/
def eventJumpOp (s : Nat) (d : Device) : Device :=
  let z := d.seqOf s
  match z.request with
  | none => d
  | some (r, j) =>
    if z.phase ≠ .play then d
    else if jumpAtFront z then jumpTaken s d
    else match z.hold with
      | .wait _ _ _ _ _ _ => if r ≤ d.cycle then takeJump s r true (r + issueLatency) false j (squashAll s d) else d
      | _ =>
        match z.lastJump with
        | some c => if r + issueLatency ≤ c then jumpAtPoint s r c j d else d
        | none => d

/-! ## Stalls (R177) -/

/-- What an ISSUE stall waits for: 4,096 vectors in every quad's buffer, or all that can be issued. -/
def issueCaughtUp (d : Device) (s : Nat) : Bool :=
  let z := d.seqOf s
  (d.siteQuads s).all fun q =>
    decide (prePinSize ≤ d.runAhead s q) ||
    ((!z.issuing || condBlocks z || d.jumpBlocks s || d.predictionEnds s) && decide (d.issuedVectors s ≤ d.runAhead s q))

/-- The run-ahead holds what stopped issue for good: a HALT, an error or a WAIT. -/
def issueDone (z : Seq) : Bool :=
  z.items.any (fun i => match i with
    | .effect _ e _ _ => e.stops
    | .vectors _ => false) || condBlocks z

/-- The first block after a stall commits 48 ns after the resume cycle at the earliest. -/
def delayFront (c : Nat) : List Item → List Item
  | .vectors p :: l => .vectors { p with base := p.done, ready := max p.ready (c + issueLatency), early := 0 } :: l
  | l => l

/-- The stall ends and play goes on. -/
def stallResumeOp (s : Nat) (d : Device) : Device :=
  let z := d.seqOf s
  match z.hold with
  | .stall _ cause =>
    let ok := if cause = 2 then d.issueCaughtUp s else (d.siteQuads s).all (d.refilled s)
    if !ok then d
    else
      let first := if cause = 2 then d.cycle + 1 else d.cycle + issueLatency
      let d1 := endStall s first d
      settleSeq s (d1.setSeq s
        { d1.seqOf s with hold := .none, arm := none, issuing := z.issuing || !(issueDone z),
                          issueFree := max z.issueFree d.cycle, gapEnd := first, gapCounts := false, resumeAt := first,
                          items := if cause = 2 then z.items else delayFront d.cycle z.items })
  | _ => d

/-! ## Start (R120, R167) -/

/-- The quad has loaded its resident image and filled its buffer, or come to the end of its stream. -/
def quadPreloaded (d : Device) (q : Nat) : Bool :=
  let x := d.streamOf q
  decide (x.resLen ≤ x.resGot) && (x.filled || decide (x.length ≤ x.fetched))

/-- The pattern's first vector is in the buffer of every quad, or an instruction that ends the play comes before it. -/
def firstVectorReady (d : Device) (s : Nat) : List Item → Bool
  | [] => false
  | .vectors p :: _ => d.canPlay s d.cycle p
  | .effect _ e _ _ :: l => e.stops || d.firstVectorReady s l

def preloadDone (d : Device) (s : Nat) : Bool :=
  (d.siteQuads s).all d.quadPreloaded && d.firstVectorReady s (d.seqOf s).items

/-- The start cycle: the first vector commits 48 ns and is at the plane 64 ns later (R120, R154). -/
def startPlay (s : Nat) (d : Device) : Device :=
  let z := d.seqOf s
  let b := 1000 * (d.cycle + issueLatency)
  settleSeq s (d.setSeq s { z with
    phase := .play, preloaded := true, boundaryPs := b, request := z.request.map fun r => (d.cycle + issueLatency, r.2) })

/-- A start that the allowance did not cover is logged and counted as a stall before the first vector (R120, R179). -/
def lateStart (s : Nat) (d : Device) : Device :=
  let z := d.seqOf s
  let late := d.cycle - ((d.flowOf s).beginCycle + z.allowance)
  let d0 := d.setSeq s { z with stalls := z.stalls + 1 }
  let d1 := ((d0.addSat (siteIx s) 0x10 4 1).addWrap (siteIx s) 0x11 8 late).w (siteIx s) 0x12 0
  logRecord s (logWord 4 3 0 0 late) (startPlay s d1)

/-- Preload is complete (R120, R167). -/
def preloadCompleteOp (s : Nat) (d : Device) : Device :=
  let z := d.seqOf s
  if z.phase ≠ .preload ∨ z.preloaded = true ∨ d.preloadDone s = false then d
  else if z.allowance = 0 then startPlay s d
  else if z.expired then lateStart s d
  else d.setSeq s { z with preloaded := true }

/-- The preload allowance runs out (R120): start, wait under STALL, or fail under ABORT. -/
def allowanceOp (s : Nat) (d : Device) : Device :=
  let z := d.seqOf s
  if z.phase ≠ .preload ∨ z.allowance = 0 ∨ z.expired = true ∨ d.cycle < (d.flowOf s).beginCycle + z.allowance then d
  else if z.preloaded then startPlay s d
  else
    let late := (d.siteQuads s).filter fun q => !(d.quadPreloaded q)
    let d1 := recordCauses ((if late.isEmpty then d.siteQuads s else late).map fun q => (q, 3)) d
    if d.stallPolicy s = 0 then d1.setSeq s { d1.seqOf s with expired := true } else stopPattern s haltUnderrun d1

/-! ## A cycle of the sequencers -/

/-- The sites whose sequencer runs. -/
def runningSites (d : Device) : List Nat := (d.sites.seq.filter fun p => p.2.phase == .preload || p.2.phase == .play).map Prod.fst

/-- What a cycle brings to a running pattern: a quad whose fill has fallen arms the stall (R176), and an event jump whose
registration cycle has come is chosen (R175). -/
def seqTick (s : Nat) (d : Device) : Device :=
  let d1 := each (armStall s) (d.siteQuads s) d
  if (d1.seqOf s).request.isSome then settleSeq s (chooseJump s d1) else d1

/-! ## The control store (R150, R151) -/

/-- Quad `q` begins a reload of its control store. -/
def beginReload (q : Nat) (d : Device) : Device := (d.addSat (quadIx q) 0x71 4 1).w (quadIx q) 0x60 7

/-- The quad reads its control store: it is neither FENCED nor RELOADING. -/
def storeRead (d : Device) (q : Nat) : Bool := d.o (quadIx q) 0x60 != 6 && d.o (quadIx q) 0x60 != 7

/-- The quad plays or follows a pattern. -/
def playingSite (d : Device) (q : Nat) : Option Nat :=
  match d.siteOf q with
  | some s => if (d.seqOf s).phase = .off then none else some s
  | none => none

/-- A parity error at a read of the control store (R151). -/
def storeParityOp (q : Nat) (d : Device) : Device :=
  if !(d.storeRead q) then d
  else
    let d1 := beginReload q d
    match d.playingSite q with
    | some s => stopPattern s haltParity (d1.w (quadIx (d.leadQuad s)) 0x75 q)
    | none => d1

/-- The background sweep of a quad that plays no pattern (R151): in every power state of its tile, and so is its reload, although R23
gates the sequencer clock in NAP and deeper (DESIGN CHOICE, log entry 115). -/
def sweepOp (q : Nat) (bad : Bool) (d : Device) : Device :=
  if d.storeRead q && (d.playingSite q).isNone && bad then beginReload q d else d

/-- The state that membership gives a quad (R151). -/
def memberState (d : Device) (q : Nat) : Nat :=
  match d.siteOf q with
  | none => 0
  | some s => if d.leadQuad s = q then 1 else 5

/-- A quad is fenced (R150). -/
def fence (q : Nat) (d : Device) : Device :=
  (((d.w (quadIx q) 0x60 6).wbit 0x1260 (7 + q / 64) (q % 64) true).w 0x1260 0x06 (d.o 0x1260 0x06 - 1)).raise 16

/-- The CRC-32 of a control store over its words' bytes, low byte first as the image holds them (R150, R337). -/
def storeCrc (words : List (BitVec 96)) : Nat := crc32 (words.flatMap fun w => leBytes 12 w.toNat)

/-- What a load of `words`, whose CRC is `whole`, leaves in quad `q`'s control store, and its CRC (R150). -/
def storeLoad (faults : List LoadFault) (second : Bool) (q : Nat) (words : List (BitVec 96)) (whole : Nat) :
    List (BitVec 96) × Nat :=
  match faults.filter fun f => f.quad.val == q && f.second == second with
  | [] => (words, whole)
  | l => let x := l.foldl (fun ws f => ws.set f.word.val f.value) words
         (x, storeCrc x)

/-- Quad `q`'s control store holds `words`. -/
def takeStore (q : Nat) (words : List (BitVec 96)) (d : Device) : Device :=
  { d with boot := { d.boot with stores := Cells.write [] q words d.boot.stores } }

/-- A reload from the boot image ends (R150, R151): a second mismatch fences the quad. -/
def reloadDoneOp (q : Nat) (faults : List LoadFault) (d : Device) : Device :=
  if d.o (quadIx q) 0x60 ≠ 7 then d
  else
    let again := bit d.boot.reloaded q
    let words := match d.boot.image with
      | some im => im.microcode
      | none => Cells.read [] q d.boot.stores
    let x := storeLoad faults again q words (storeCrc words)
    let crc := x.2
    let d1 := ((takeStore q x.1 d).addWrap (quadIx q) 0x70 2 1).w (quadIx q) 0x6F crc
    let d2 := { d1 with boot := { d1.boot with reloaded := setBit d1.boot.reloaded q (crc != d.o 0x1260 0x05 && !again) } }
    if crc = d.o 0x1260 0x05 then d2.w (quadIx q) 0x60 (d.memberState q)
    else if again then fence q d2 else d2

end Device

/-! ## Meanings -/

open Device

/-- VECTOR_COMMIT (R121, R155). -/
def execVectorCommit (s : Site) (st : State) : Host.Outcome State Fault Refusal := nextDev st (vectorCommitOp s.val st.dev)

/-- WAIT_CONDITION_MET (R137). -/
def execWaitConditionMet (s : Site) (st : State) : Host.Outcome State Fault Refusal := nextDev st (waitMetOp s.val st.dev)

/-- WAIT_TIMEOUT (R137). -/
def execWaitTimeout (s : Site) (st : State) : Host.Outcome State Fault Refusal := nextDev st (waitTimeoutOp s.val st.dev)

/-- STALL_RESUME (R177). -/
def execStallResume (s : Site) (st : State) : Host.Outcome State Fault Refusal := nextDev st (stallResumeOp s.val st.dev)

/-- COMPARE_RESULT (R157). -/
def execCompareResult (s : Site) (seen : List Seen) (st : State) : Host.Outcome State Fault Refusal :=
  nextDev st (compareResultOp s.val seen st.dev)

/-- EVENT_JUMP_REQUEST (R138 to R140). -/
def execEventJumpRequest (s : Site) (st : State) : Host.Outcome State Fault Refusal := nextDev st (jumpRequestOp s.val st.dev)

/-- EVENT_JUMP (R139, R140, R175). -/
def execEventJump (s : Site) (st : State) : Host.Outcome State Fault Refusal := nextDev st (eventJumpOp s.val st.dev)

/-- PRELOAD_COMPLETE (R120, R167). -/
def execPreloadComplete (s : Site) (st : State) : Host.Outcome State Fault Refusal := nextDev st (preloadCompleteOp s.val st.dev)

/-- PRELOAD_ALLOWANCE_EXPIRY (R120). -/
def execPreloadAllowanceExpiry (s : Site) (st : State) : Host.Outcome State Fault Refusal := nextDev st (allowanceOp s.val st.dev)

/-- CAPTURE_COPY_DONE (R165). -/
def execCaptureCopyDone (s : Site) (st : State) : Host.Outcome State Fault Refusal := nextDev st (captureDoneOp s.val st.dev)

/-- PATTERN_END (R144). -/
def execPatternEnd (s : Site) (st : State) : Host.Outcome State Fault Refusal := nextDev st (patternEndOp s.val st.dev)

/-- CONTROL_STORE_PARITY_ERROR (R151). -/
def execControlStoreParityError (q : Quad) (st : State) : Host.Outcome State Fault Refusal := nextDev st (storeParityOp q.val st.dev)

/-- BACKGROUND_SWEEP (R151). -/
def execBackgroundSweep (q : Quad) (parityError : Bool) (st : State) : Host.Outcome State Fault Refusal :=
  nextDev st (sweepOp q.val parityError st.dev)

/-- CONTROL_STORE_RELOAD_DONE (R150, R151). -/
def execControlStoreReloadDone (q : Quad) (faults : List LoadFault) (st : State) : Host.Outcome State Fault Refusal :=
  nextDev st (reloadDoneOp q.val faults st.dev)

end Sys2Proof.Machine
end

