-- ==== Sys2Proof/Machine/Calibration.lean ====
section
/-!
DEFINITION. Calibration (chapter 14): causes and pending calibrations (R359, R360), start and runs (R361 to R363), acceptance,
application and history (R364 to R367).

A calibration unit is numbered 0 for the tile's timing reference, 1 to 64 for the channels' timing, 65 to 128 for the
channels' levels and 129 to 136 for the DPS channels (R356).
-/
namespace Sys2Proof.Machine

def calIdle : Nat := 0
def calWaiting : Nat := 1
def calRun1 : Nat := 2
def calRun2 : Nat := 3
def calApplying : Nat := 4

/-- Kinds: bit 0 TIMING, bit 1 LEVEL. -/
def kindTiming : Nat := 1
def kindLevel : Nat := 2

/-- The units that a calibration of `kinds` judges (R356). -/
def calUnits (kinds : Nat) : List Nat :=
  (if bit kinds 0 then List.range 65 else []) ++ (if bit kinds 1 then (List.range 72).map (65 + ·) else [])

/-- The coefficients that a run found for unit `i`. -/
def unitOf (l : List CalUnit) (i : Nat) : Option Coefs := (l.find? fun u => u.unit.val == i).bind CalUnit.coefs

/-- Two lists of coefficients differ by at most `limit`, each from its own. -/
def allWithin (limit : Nat) (a b : List Int) : Bool :=
  a.length == b.length && (List.zip a b).all fun p => decide ((p.1 - p.2).natAbs ≤ limit)

/-- The two runs of unit `i` agree (R356): within 1.0 ps, or within 50 µV and 100 ppm. -/
def unitAgrees (i : Nat) (a b : Coefs) : Bool :=
  if i ≤ 64 then
    decide ((a.drive - b.drive).natAbs ≤ 4) && decide ((a.compare - b.compare).natAbs ≤ 4) && allWithin 1000 a.edges b.edges
  else allWithin 50000 a.volts b.volts && allWithin 100 a.gains b.gains

/-- The mean of a coefficient's two runs, truncated toward zero (DESIGN CHOICE, log entry 43). -/
def coefMean (x y : Int) : Int := tdiv (x + y) 2

/-- The mean of two runs (R364). -/
def meanCoefs (a b : Coefs) : Coefs :=
  { drive := coefMean a.drive b.drive, compare := coefMean a.compare b.compare, edges := List.zipWith coefMean a.edges b.edges,
    volts := List.zipWith coefMean a.volts b.volts, gains := List.zipWith coefMean a.gains b.gains }

/-- Why a unit is rejected by its runs `l` and `m`, 0 if it is accepted (R358, R364): 1 TIMING-DISAGREE, 2 LEVEL-DISAGREE,
3 REFERENCE, 4 NO-EDGES. -/
def unitCause (l m : List CalUnit) (refBad : Bool) (i : Nat) : Nat :=
  if 65 ≤ i ∧ refBad = true then 3
  else match unitOf l i, unitOf m i with
    | some a, some b => if unitAgrees i a b then 0 else if i ≤ 64 then 1 else 2
    | _, _ => if i ≤ 64 then 4 else 2

/-- A timing unit falls with its tile's reference (R356). -/
def unitRejected (l m : List CalUnit) (refBad : Bool) (i : Nat) : Bool :=
  unitCause l m refBad i != 0 || (decide (1 ≤ i) && decide (i ≤ 64) && unitCause l m refBad 0 != 0)

/-- REFV within 2.5000 V ± 1 % and ZCAL within 1.000 kΩ ± 1 % (R358). -/
def referencesOk (refv zcal : BitVec 32) : Bool :=
  decide (247500 ≤ refv.toInt) && decide (refv.toInt ≤ 252500) && decide (990000 ≤ zcal.toNat) && decide (zcal.toNat ≤ 1010000)

namespace Device

def calState (d : Device) (t : Nat) : Nat := d.o (0x1410 + t) 0x01
def setCalState (t v : Nat) (d : Device) : Device := d.w (0x1410 + t) 0x01 v

/-- A tile's hottest reading in 1/16 degree (R377). -/
def tileHottest (d : Device) (t : Nat) : Int := sx 16 (d.o (0x1310 + t) 0x09)

def faultCode : Int := 2400

/-! ## Due causes (R359, R360) -/

/-- The pending causes that the part acts on: HOST and FLOW always, the others while calibration is automatic, TEMPERATURE
and RETRY not past the rejection limit, TEMPERATURE not while the hottest sensor reports FAULT. -/
def actedCauses (d : Device) (t : Nat) : Nat :=
  let auto := d.o 0x1400 0x01 == 1
  let open_ := auto && !((d.calOf t).suspended)
  d.o (0x1410 + t) 0x03 &&&
    ((if open_ && d.tileHottest t != faultCode then 1 else 0) + 2 + (if auto then 4 else 0) + 8 + (if open_ then 16 else 0))

/-- A tile that runs no calibration is WAITING while a cause it acts on is pending. -/
def settleCal (t : Nat) (d : Device) : Device :=
  if 2 ≤ d.calState t then d
  else settleTile t (setCalState t (if d.actedCauses t = 0 then calIdle else calWaiting) d)

def settleCals (d : Device) : Device := each settleCal (List.range 8) d

/-- A cause makes tile `t` due for `kinds`. -/
def calDue (cause kinds t : Nat) (d : Device) : Device :=
  let d1 := (d.w (0x1410 + t) 0x02 (d.o (0x1410 + t) 0x02 ||| kinds)).w (0x1410 + t) 0x03
    (d.o (0x1410 + t) 0x03 ||| 2 ^ cause)
  settleCal t d1

/-- The tile's temperature change, and the TEMPERATURE cause (R359, R360): it becomes due when the change comes to exceed the step, with
the FAULT code of a hottest sensor too, which only `actedCauses` leaves aside. There is no reference before the first calibration
that is accepted in part. -/
def calTemperature (t : Nat) (d : Device) : Device :=
  let change := d.tileHottest t - sx 16 (d.o (0x1410 + t) 0x07)
  let step := 16 * d.o 0x1400 0x02
  let x := d.calOf t
  let far := step != 0 && d.o (0x1410 + t) 0x04 != 0 && decide (step < change.natAbs)
  let d1 := (d.w (0x1410 + t) 0x08 (ux 16 change)).setCal t { x with apart := far }
  if far && !x.apart then
    let d2 := if x.needRaised then d1
      else (d1.raise (tileSource t 5)).setCal t { x with apart := far, needRaised := true }
    calDue 0 3 t d2
  else settleCal t d1

/-- A host request (R360): an empty mask or no kind requests nothing. -/
def calRequestOp (v : Nat) (d : Device) : Device :=
  let kinds := bitf v 8 2
  if kinds = 0 then d else each (calDue 1 kinds) ((List.range 8).filter fun t => bit v t) d

/-- The retry interval has elapsed (R359). -/
def retryOp (t : Nat) (d : Device) : Device :=
  let x := d.calOf t
  match x.retryAt with
  | some c => if c ≤ d.cycle then calDue 4 x.retryKinds t (d.setCal t { x with retryAt := none }) else d
  | none => d

/-! ## Start (R361, R362) -/

/-- A site with a quad in the tile executes a RUN-PATTERN or PARAM-MEASURE step. -/
def siteMeasures (d : Device) (t : Nat) : Bool :=
  (List.range 128).any fun s => bit (d.o (siteIx s) 0x06) t && (d.runsStep s opRunPattern || d.runsStep s opParamMeasure)

/-- A pending calibration may start (R361, R381): the tile takes the command from the supervisor only (R20). -/
def calMayStart (d : Device) (t : Nat) : Bool :=
  d.calState t == calWaiting && !(d.siteMeasures t) && !((List.range 2).any fun h => d.headEnabled h && d.headTile h == t) &&
  d.powerState t == 0 && Cells.read 0 t d.power.moving == 0 && d.refclk == .present && d.supervisorRuns && !(d.throttled t)

def tileChans (t : Nat) : List Nat := (List.range 64).map (64 * t + ·)

/-- The calibration starts: the pending kinds and causes are its own, and running TMU measurements end (R362). -/
def calStartOp (t : Nat) (d : Device) : Device :=
  if !(d.calMayStart t) then d
  else
    let x := d.calOf t
    let d1 := d.setCal t { x with kinds := d.o (0x1410 + t) 0x02, causes := d.o (0x1410 + t) 0x03, began := d.cycle,
                                  temperature := d.tileHottest t, refBad := false, checked := none, run1 := [],
                                  run2 := [], path := [], pathUsed := [], internal := d.o (0x1410 + t) 0x10 }
    let d2 := (((d1.w (0x1410 + t) 0x02 0).w (0x1410 + t) 0x03 0).w (0x1410 + t) 0x09 0).w (0x1410 + t) 0x0A 0
    settleTile t ((each abortTmu (tileChans t) (setCalState t calRun1 d2)).raise 56)

/-! ## The end of a calibration (R362, R364 to R367) -/

/-- A channel at the end of a calibration: its PPMU discards three samples, and a HELD arm takes effect. -/
def restoreChan (n : Nat) (d : Device) : Device :=
  let d1 := if d.ppmuMode n = 0 then d else (d.setPpmuSkip n 3).w (chanIx n) 0x12 0
  armHeld n d1

/-- The tile's resources are restored and what waits for it goes on. -/
def calRestore (t : Nat) (d : Device) : Device := settleCal t (each restoreChan (tileChans t) (setCalState t calIdle d))

/-- A channel's history after a timing (`off` 0) or level (`off` 1) judgement (R367). -/
def history (n off : Nat) (accepted internal : Bool) (d : Device) : Device :=
  let r := d.get (historyKey n)
  let flags := fld r 28 1
  let r1 :=
    if accepted then
      let f1 := setBit flags off false
      let f2 := if off = 0 then setBit f1 2 internal else f1
      setFld (setFld (setFld r (4 * off) 4 (fld r (4 * off) 4 + 1)) (8 + 8 * off) 8 d.ringNs) 28 1 f2
    else setFld r (24 + 2 * off) 2 (satAdd 16 (fld r (24 + 2 * off) 2) 1)
  d.put (historyKey n) r1

/-- The mean of unit `i` of tile `t` becomes its coefficient set, a channel's deskews with it (R364, R365). -/
def takeCoefs (t i : Nat) (c : Coefs) (d : Device) : Device :=
  let n := 64 * t + (i - 1)
  let d1 := { d with power := { d.power with coefs := Cells.write none (137 * t + i) (some c) d.power.coefs } }
  if 1 ≤ i ∧ i ≤ 64 then (d1.w (chanIx n) 0x19 (ux 32 c.drive)).w (chanIx n) 0x1A (ux 32 c.compare) else d1

/-- One unit is judged by its two runs (R364), and the history of a channel is kept (R367). -/
def judgeUnit (t : Nat) (l m : List CalUnit) (i : Nat) (d : Device) : Device :=
  let bad := unitRejected l m (d.calOf t).refBad i
  let d1 := match unitOf l i, unitOf m i with
    | some a, some b => if bad then d else takeCoefs t i (meanCoefs a b) d
    | _, _ => d
  if i = 0 ∨ 129 ≤ i then d1
  else if 65 ≤ i then history (64 * t + (i - 65)) 1 (!bad) false d1
  else history (64 * t + (i - 1)) 0 (!bad) (bit (d.calOf t).internal (i - 1)) d1

/-- The outcome: 1 ACCEPTED, 2 PARTIAL, 3 REJECTED. -/
def calOutcome (rejected units : Nat) : Nat := if rejected = 0 then 1 else if rejected < units then 2 else 3

/-- The reference temperature and the counts after the outcome (R360, R366). -/
def calCount (t outcome rejected cause retryKinds : Nat) (d : Device) : Device :=
  let x := d.calOf t
  let o (sub : Nat) : Nat := d.o (0x1410 + t) sub
  let row := if outcome = 1 then 0 else satAdd 8 (o 0x0D) 1
  let limit := d.o 0x1400 0x04
  let asked := x.causes &&& 0x0A != 0
  let stopped := (x.suspended && !(outcome == 1 && asked)) || (limit != 0 && decide (limit ≤ row))
  let d1 := (((d.w (0x1410 + t) 0x0B outcome).w (0x1410 + t) 0x0D row).w (0x1410 + t) 0x0E rejected).w (0x1410 + t) 0x06 d.ringNs
  let d2 := if outcome ≤ 2 then ((d1.addWrap (0x1410 + t) 0x04 4 1).w (0x1410 + t) 0x07 (ux 16 x.temperature)).w (0x1410 + t) 0x08
      (ux 16 (d.tileHottest t - x.temperature)) else d1
  let d3 := if 2 ≤ outcome then (d2.addWrap (0x1410 + t) 0x05 4 1).w (0x1410 + t) 0x0C cause else d2
  let wait := 1000000 * d.o 0x1400 0x03
  let d4 := d3.setCal t
    { x with suspended := stopped, needRaised := x.needRaised && decide (outcome = 3), apart := x.apart && decide (outcome = 3),
             retryAt := if 2 ≤ outcome && !stopped then some (d.cycle + wait) else none,
             retryKinds := retryKinds, kinds := 0, causes := 0 }
  (d4.w (0x1410 + t) 0x12 ((d.cycle - x.began) / 1000)).raise (if outcome = 1 then 57 else 58)

/-- New level corrections are loaded with the codes of each quad's selected set, which is no strobe (R365). -/
def loadCorrections (t : Nat) (d : Device) : Device :=
  if bit (d.calOf t).kinds 1 then each loadDacs ((List.range 16).map (16 * t + ·)) d else d

/-- In the cycle after run 2, in which the tile reads APPLYING, every unit is judged and the accepted coefficients of the tile are
applied (R364, R365). -/
def finishCal (t : Nat) (d : Device) : Device :=
  let x := d.calOf t
  let l := x.run1
  let m := x.run2
  let units := calUnits x.kinds
  let bad := units.filter (unitRejected l m x.refBad)
  let cause := ((bad.map (unitCause l m x.refBad)).find? fun c => c != 0).getD 0
  let kinds := (if bad.any fun i => decide (i ≤ 64) then 1 else 0) + (if bad.any fun i => decide (65 ≤ i) then 2 else 0)
  let outcome := calOutcome bad.length units.length
  let d1 := loadCorrections t (each (judgeUnit t l m) units d)
  let d2 := calCount t outcome bad.length cause kinds d1
  let d3 := (d2.w (0x1410 + t) 0x0A (2 * units.length)).w (0x1410 + t) 0x09 100
  let d4 := calRestore t d3
  let d5 := if outcome ≠ 1 ∧ d.o 0x1400 0x03 = 0 then retryOp t d4 else d4
  calEnded t (outcome != 1) d5

/-- The calibrations whose two runs are over are applied in the cycle that now begins (R365). -/
def finishCals (d : Device) : Device :=
  each (fun t e => if e.calState t = calApplying then finishCal t e else e) (List.range 8) d

/-- The percent at position `pos` of a calibration of `n` units, before its end (R363). -/
def calPercent (pos n : Nat) : Nat := min 99 (100 * pos / max (2 * n) 1)

/-- The units of the present run that can have finished (R358, R363): no level unit before the references have been checked, nor where
they were outside their limits. -/
def runUnits (d : Device) (t : Nat) : Nat :=
  let x := d.calOf t
  (if bit x.kinds 0 then 65 else 0) + (if bit x.kinds 1 && x.checked == some true then 72 else 0)

/-- `m` units of the present run have finished (R363): position and percent move. -/
def unitsFinished (t m : Nat) (d : Device) : Device :=
  let n := (calUnits (d.calOf t).kinds).length
  let pos := (if d.calState t = calRun2 then n else 0) + m
  if d.calState t < 2 ∨ d.calState t = calApplying ∨ d.runUnits t < m ∨ pos < d.o (0x1410 + t) 0x0A then d
  else (d.w (0x1410 + t) 0x0A pos).w (0x1410 + t) 0x09 (calPercent pos n)

/-- At the start of its LEVEL part a run shows its references, and where they are outside their limits its level units are rejected
(R358). -/
def takeReferences (t : Nat) (refv zcal : BitVec 32) (d : Device) : Device :=
  let x := d.calOf t
  if d.levelRun t && d.calState t != calApplying && x.checked.isNone then
    let good := referencesOk refv zcal
    ((d.w 0x1400 0x07 refv.toNat).w 0x1400 0x08 zcal.toNat).setCal t { x with refBad := x.refBad || !good, checked := some good }
  else d

/-- The measurement paths of the DPS channels in `mask` are switched from now on, and no others (R362). -/
def switchPaths (t mask : Nat) (d : Device) : Device :=
  let x := d.calOf t
  let used := x.path.foldl (fun u p => Cells.write 0 p.1 (Cells.read 0 p.1 u + (d.cycle - p.2)) u) x.pathUsed
  if d.levelRun t then d.setCal t { x with path := ((List.range 8).filter fun k => bit mask k).map fun k => (k, d.cycle), pathUsed := used }
  else d

/-- A run ends (R363), a LEVEL run not before its references have been checked (R358): after run 1, run 2 starts; after run 2 the
tile is APPLYING. -/
def calRunOp (t : Nat) (l : List CalUnit) (d : Device) : Device :=
  let x := d.calOf t
  let n := (calUnits x.kinds).length
  if bit x.kinds 1 && x.checked.isNone then d
  else if d.calState t = calRun1 then
    let d1 := d.setCal t { x with internal := d.o (0x1410 + t) 0x10, checked := none, path := [], pathUsed := [], run1 := l }
    ((setCalState t calRun2 d1).w (0x1410 + t) 0x0A n).w (0x1410 + t) 0x09 (calPercent n n)
  else if d.calState t = calRun2 then setCalState t calApplying (d.setCal t { x with run2 := l, path := [], pathUsed := [] })
  else d

/-- What the run in progress reports. -/
def calReport (t : Nat) (r : CalReport) (d : Device) : Device := match r with
  | .finished m => unitsFinished t m.toNat d
  | .references refv zcal => takeReferences t refv zcal d
  | .path dps => switchPaths t dps.toNat d
  | .run units => calRunOp t units d

/-- A calibration is ABORTED: it is pending again with its causes (R366). -/
def abortCal (t : Nat) (d : Device) : Device :=
  if d.calState t < 2 then d
  else
    let x := d.calOf t
    let d1 := (d.w (0x1410 + t) 0x02 (d.o (0x1410 + t) 0x02 ||| x.kinds)).w (0x1410 + t) 0x03 (d.o (0x1410 + t) 0x03 ||| x.causes)
    calRestore t ((d1.w (0x1410 + t) 0x0B 4).setCal t { x with kinds := 0, causes := 0, path := [], pathUsed := [] })

/-- CALIBRATE-POINT with DUE acts on what is pending in a tile, automatic or not (R201, R359). -/
def calActOnDue (t : Nat) (d : Device) : Device :=
  if d.o (0x1410 + t) 0x02 = 0 then d else calDue 3 0 t d

end Device

/-! ## Meanings -/

open Device

/-- CALIBRATION_REQUEST (R359, R360). -/
def execCalibrationRequest (p : Port) (v : BitVec 16) (s : State) : Host.Outcome State Fault Refusal :=
  nextDev s (hostWrite s.dev p 0x1400 0x05 v.toNat false (calRequestOp v.toNat))

/-- CALIBRATION_START (R361, R362). -/
def execCalibrationStart (t : Tile) (s : State) : Host.Outcome State Fault Refusal := nextDev s (calStartOp t.val s.dev)

/-- CALIBRATION_RUN_DONE (R358, R363 to R367). -/
def execCalibrationRunDone (t : Tile) (r : CalReport) (s : State) : Host.Outcome State Fault Refusal :=
  nextDev s (calReport t.val r s.dev)

/-- RETRY_INTERVAL_EXPIRY (R359). -/
def execRetryIntervalExpiry (t : Tile) (s : State) : Host.Outcome State Fault Refusal := nextDev s (retryOp t.val s.dev)

end Sys2Proof.Machine
end

