-- ==== Sys2Proof/Machine/Flow.lean ====
section
/-!
DEFINITION. Sites and their flows (chapter 07): site commits (R14, R15, R180, R183), starts (R184, R185), step boundaries
(R186 to R188), the steps (R192 to R201), result records (R210), aborts and timeouts (R187, R204).
-/
namespace Sys2Proof.Machine

/-- The current bin's two objects as the bin field of R189; 0 for none. -/
def binField (soft hard : Nat) : Nat := if soft = 0xFFFF then 0 else soft % 1024 + hard % 32 * 1024 + 0x8000

/-- The descriptor of a pattern (R118). -/
def descSize : Nat := 576
def descMagic (x : Nat) : Nat := fld x 0 4
def descVersion (x : Nat) : Nat := fld x 4 2
def descLevel (x : Nat) : Nat := fld x 6 2
def descBlocks (x : Nat) : Nat := fld x 8 4
def descEntry (x : Nat) : Nat := fld x 12 4
def descAllowance (x : Nat) : Nat := fld x 16 4
def descPresent (x k : Nat) : Bool := bit (fld x 20 2) k
def descDemand (x i : Nat) : Nat := fld x (24 + 2 * i) 2
def entryBase (x k : Nat) : Nat := fld x (64 + 32 * k) 8
def entryLength (x k : Nat) : Nat := fld x (72 + 32 * k) 8
def entryTable (x k : Nat) : Nat := fld x (80 + 32 * k) 8
def entryResOff (x k : Nat) : Nat := fld x (88 + 32 * k) 4
def entryResLen (x k : Nat) : Nat := 64 * fld x (92 + 32 * k) 2
def entryKind (x k : Nat) : Nat := fld x (94 + 32 * k) 1

/-- A field of the descriptor itself is wrong (R119). -/
def descBad (x : Nat) : Bool :=
  descMagic x != 0x4B535256 || descVersion x != 1 || fld x 22 2 != 0 || fld x 32 32 != 0 || descBlocks x == 0 ||
  decide (descBlocks x ≤ descEntry x) || (List.range 16).any fun k => fld x (95 + 32 * k) 1 != 0

namespace Device

/-! ## Site commits (R14, R15, R180, R183) -/

def siteKeys (s : Nat) : List Nat :=
  [okey (siteIx s) 0x01, okey (siteIx s) 0x02] ++ subKeys (siteIx s) 0x08 5 ++ subKeys (siteIx s) 0x18 13

def siteStatusKey (s : Nat) : Nat := okey (siteIx s) 0x0E

def pendMask (d : Device) (s : Nat) : Nat := d.pnd (siteIx s) 0x01 + 2 ^ 64 * d.pnd (siteIx s) 0x02

/-- The sites whose pending commits come before that of site `s` (R15). -/
def earlierSites (d : Device) (s : Nat) : List Nat :=
  (d.pend.takeWhile fun b => b != .site s).filterMap fun b => match b with
    | .site k => some k
    | _ => none

/-- A quad of the new mask belongs to another site, to one whose commit is processed earlier (R14), or to the group of an
enabled raster head (R308). -/
def maskConflict (d : Device) (s : Nat) : Bool :=
  ((List.range 2).any fun h => d.headEnabled h && (d.headQuads h).any fun q => (d.pendMask s).testBit q) ||
  ((List.range 128).any fun k => k != s && (d.pendMask s &&& d.siteMask k) != 0) ||
  (d.earlierSites s).any fun k => (d.pendMask s &&& d.pendMask k) != 0

/-- A quad plays a pattern, follows one of a running flow, or reloads its control store (R14). -/
def quadBusy (d : Device) (q : Nat) : Bool :=
  let st := d.o (quadIx q) 0x60
  st == 2 || st == 3 || st == 4 || st == 7 ||
  (st == 5 && match d.siteOf q with
    | some k => d.siteState k == siteRunning
    | none => false)

def isClass (d : Device) (q cls : Nat) : Bool := decide (q < 262144) && d.queueClass q == cls

/-- The flow configuration of R183, as (code, bad) pairs. -/
def flowConfigBad (d : Device) (s : Nat) : List (Nat × Bool) :=
  let v (sub : Nat) : Nat := d.pnd (siteIx s) sub
  let some_ := v 0x19 != 0
  [(codeOutOfRange, v 0x18 % 32 != 0 || decide (1048576 < v 0x18 + 32 * v 0x19) || decide (count48 < v 0x1E)),
   (codeInconsistent, some_ && (decide (v 0x19 ≤ v 0x1A) || (decide (v 0x19 ≤ v 0x1B) && v 0x1B != 0xFFFF))),
   (0x0121, some_ && (!(d.isClass (v 0x1C) 3) || (decide (v 0x1C < 262144) && d.queuePlacement (v 0x1C) != 0) ||
      (v 0x1D != noQueue && !(d.isClass (v 0x1D) 1))))]

/-- The checks of a site commit. -/
def siteCheck (s : Nat) (d : Device) : Nat :=
  let v (sub : Nat) : Nat := d.pnd (siteIx s) sub
  let quads := maskQuads (d.pendMask s ||| d.siteMask s)
  let level (sub : Nat) : Bool := v sub % 64 != 0 || decide (bufferSize < v sub)
  verdict ([
    (codeUnavailable, !d.supervisorRuns || quads.any fun q => d.o (quadIx q) 0x60 == 6),
    (codeBusy, d.siteBusy s || quads.any d.quadBusy),
    (codeConflict, d.maskConflict s),
    (codeZeroRefused, v 0x09 == 0 || v 0x0B == 0),
    (codeOutOfRange, level 0x09 || level 0x0A || level 0x0B || decide (1 < v 0x08)),
    (codeInconsistent, decide (v 0x09 ≤ v 0x0A) || decide (v 0x0B ≤ v 0x0A))] ++ d.flowConfigBad s)

/-- A quad that leaves a site, or joins one: its sequencer is reset and its channels are at DZ (R13, R127). -/
def clearQuad (st q : Nat) (d : Device) : Device :=
  parkChans (quadChans q) (setQuadState q st (d.setStream q Stream.init))

/-- The sites a cluster hosts (R212). -/
def settleCluster (c : Nat) (d : Device) : Device :=
  let led (k : Nat) : Nat := ((List.range 128).find? fun s => d.siteMask s != 0 && d.leadQuad s == 4 * c + k).getD 255
  let subs := (List.range 4).map led
  ((((d.w (clusterIx c) 0x02 (subs.getD 0 255)).w (clusterIx c) 0x03 (subs.getD 1 255)).w (clusterIx c) 0x04
    (subs.getD 2 255)).w (clusterIx c) 0x05 (subs.getD 3 255)).w (clusterIx c) 0x01 (subs.filter fun x => x != 255).length

/-- A member quad's halt reason, halt code, committed block and vector count follow the lead's (R153). -/
def followLead (lead q : Nat) (d : Device) : Device :=
  each (fun sub e => e.w (quadIx q) sub (e.o (quadIx lead) sub)) [0x61, 0x62, 0x63, 0x64] d

/-- The site fail count of a new site is the sum of its channels' (R205), and the baseline of its scope is 0 (R292). -/
def settleFails (s : Nat) (d : Device) : Device :=
  let sum := d.siteChanFails s
  setBaseline 3 s 0 ((d.w (siteIx s) 0x37 (Nat.min sum count48)).w (siteIx s) 0x43 (if count48 < sum then 1 else 0))

/-- An accepted site commit is applied (R13, R15, R180, R292); `old` is the mask before it. -/
def siteApplied (s old : Nat) (d : Device) : Device :=
  let mask := d.siteMask s
  let quads := maskQuads mask
  let lead := quads.headD 255
  let d1 := each (clearQuad 0) ((maskQuads old).filter fun q => !(mask.testBit q)) d
  let d2 := each (clearQuad 5) (quads.filter fun q => !(old.testBit q)) d1
  let d3 := each (fun q e => setQuadState q (if q = lead then 1 else 5) (followLead lead q e)) quads d2
  let host := if mask = 0 then 255 else lead / 4
  let d4 := (((d3.w (siteIx s) 0x03 lead).w (siteIx s) 0x04 host).w (siteIx s) 0x06 (maskTiles mask)).w (siteIx s) 0x05
    (if mask = 0 then siteDisabled else siteIdle)
  let d5 := each (fun sub e => e.w (siteIx s) sub 0) [0x10, 0x11, 0x12, 0x13, 0x14, 0x15, 0x16, 0x17, 0x3E, 0x40] d4
  let d6 := (settleBaseline 3 (d.hostCluster s / 4) (settleFails s d5)).settleSuspended
  settleTiles (each settleCluster (List.range 32) ((d6.setSeq s Seq.init).setFlow s
    { Flow.init with logDropped := (d6.flowOf s).logDropped }))

/-- A write of a site's commit object: it waits for the supervisor (R15). -/
def siteCommitOp (s : Nat) (d : Device) : Device :=
  commitWrite (.site s) (siteKeys s) (siteStatusKey s) (siteCheck s) (d.dropPend (.site s))

/-- The supervisor processes the oldest pending site commit (R15). -/
def siteProcessOp (d : Device) : Device :=
  match (d.pend.filterMap fun b => match b with
    | .site k => some k
    | _ => none).head? with
  | some s => commitBoundary (.site s) (siteKeys s) (siteStatusKey s) (siteCheck s) (siteApplied s (d.siteMask s)) d
  | none => d

/-! ## What holds a site at a boundary (R21, R186) -/

/-- Step 6 of R186: a tile of the site is throttled, has a calibration pending or running, or is not ACTIVE. -/
def siteHeld (d : Device) (s : Nat) : Bool :=
  (d.siteTiles s).any fun t => d.throttled t || d.calState t != 0 || d.powerState t != 0

/-- The part stops for heat: no start takes effect (R383). -/
def stopping (d : Device) : Bool := d.o 0x1300 0x12 != 0

/-! ## The current bin (R199) -/

def currentBin (d : Device) (s : Nat) : Nat := binField (d.o (siteIx s) 0x38) (d.o (siteIx s) 0x39)

def setBin (s b : Nat) (d : Device) : Device :=
  let d1 := (d.w (siteIx s) 0x38 (binSoft b)).w (siteIx s) 0x39 (binHard b)
  d1.setFlow s { d1.flowOf s with binSet := true }

/-! ## Result records (R210) -/

def resultQueue (d : Device) (s : Nat) : Nat := d.act (siteIx s) 0x1C

/-- The kind of a step's record: 1 STEP, 2 DATALOG. -/
def recordKind (op : Nat) : Nat := if op = opDatalog then 2 else 1

/-- A result record of kind `kind` with result `code`. -/
def resultRecord (d : Device) (s kind code : Nat) : Nat :=
  let f := d.flowOf s
  let z := d.seqOf s
  let op := recOpcode f.record
  let run := op == opRunPattern && kind != 3
  let ofStep := (if f.binSet then 2 else 0) + (if f.firstFail then 4 else 0) + (if f.valueOk || run then 8 else 0)
  let flags := (if code = 0 then 1 else 0) + if kind = 3 then 0 else ofStep
  let value : Nat := if kind = 3 then 0 else if run then z.vectors else ux 64 f.value
  packFields [(0, 1, kind), (1, 1, s), (2, 2, f.recNo), (4, 4, recTest f.record), (8, 1, op), (9, 1, code),
    (10, 1, if run then z.reason else 0), (11, 1, if run then z.code else 0), (12, 2, d.currentBin s), (14, 1, flags),
    (16, 8, f.begin_), (24, 8, f.end_), (32, 8, if kind = 3 then d.siteFails s else d.stepFails s), (40, 8, value),
    (48, 4, if kind = 3 then 0 else if run then z.stalls else f.samples), (52, 4, if kind = 3 then 0 else f.retries),
    (56, 4, f.seq), (60, 4, d.o (siteIx s) 0x3E)]

/-- A record is written for a credit of the result queue. -/
def writeRecord (s kind code : Nat) (d : Device) : Device :=
  let r := d.resultRecord s kind code
  let q := d.resultQueue s
  let f := d.flowOf s
  enqueueEntry q (leBytes 64 r) true none (reserve q 1 ((d.w (siteIx s) 0x3F r).setFlow s { f with seq := f.seq + 1 }))

def recordRoom (d : Device) (s : Nat) : Bool := d.canReserve (d.resultQueue s) 1

/-! ## The end of a flow (R188) -/

/-- Steps 3 to 5 of R188. -/
def closeFlow (s code : Nat) (d : Device) : Device :=
  let hard := d.o (siteIx s) 0x39
  let counts := d.o (siteIx s) 0x40
  let d1 := d.w (siteIx s) 0x40 (setFld counts (4 * hard) 4 (fld counts (4 * hard) 4 + 1))
  let d2 := ((d1.w (siteIx s) 0x32 code).w (siteIx s) 0x35 100).raise (clusterSource (d.hostCluster s) 0)
  let f := d2.flowOf s
  settleTiles ((setSiteState d2 s siteIdle).setFlow s { f with phase := .idle, ending := none, abortFlow := false, aborting := false })

/-- The END record is written, or the site waits for a credit. -/
def endRecord (s code : Nat) (d : Device) : Device :=
  if d.recordRoom s then closeFlow s code (writeRecord s 3 code d)
  else
    let f := d.flowOf s
    (setSiteState d s siteWaiting).setFlow s { f with phase := .endCredit, ending := some code }

/-- The flow ends with `code` (R188): the default bin if none was assigned, then the END record. -/
def endFlow (s code : Nat) (d : Device) : Device :=
  let dflt := d.act (siteIx s) 0x23
  let d1 := if d.o (siteIx s) 0x38 = 0xFFFF then setBin s dflt d else d
  endRecord s code d1

/-! ## Fetching a record (R186 step 5, R190) -/

def recordKey (d : Device) (s n : Nat) : Nat := sramKey (d.hostCluster s) (d.act (siteIx s) 0x18 + 32 * n)

/-- The DPS channel lies in a tile that the site spans (R195). -/
def dpsInSite (d : Device) (s k : Nat) : Bool := bit (d.o (siteIx s) 0x06) (k / 8)

/-- The offset from `key` of the first of the words that fail parity, else what the record's own checks found. -/
def firstPoison (key : Nat) (words : List Nat) (bad : Option Nat) : Option Nat := match words with
  | w :: _ => some (4 * w - key)
  | [] => bad

/-- The first failing byte offset of record `n` as it lies in SRAM (R190): poison first. -/
def fetchError (d : Device) (s n r : Nat) : Option Nat :=
  firstPoison (d.recordKey s n) (d.sramBadWords (d.recordKey s n) 32)
    (recordError r (d.act (siteIx s) 0x19) (d.siteChans s).length (d.dpsInSite s))

/-- The end of a fetch: the flow ends with RECORD-ERROR at the failing byte (R190), or the site comes to steps 6 and 7 of R186. -/
def fetchEnds (s n : Nat) (f : Flow) (bad : Option Nat) (d : Device) : Device := match bad with
  | some off => endFlow s resRecordError (d.w (siteIx s) 0x42 (n + 65536 * off))
  | none =>
    let d2 := (d.setSeq s Seq.init).setFlow s { f with phase := .boundary }
    settleTiles (setSiteState d2 s (if d.siteHeld s then siteWaiting else siteRunning))

/-- The record is fetched and checked. -/
def fetchStep (s n : Nat) (d : Device) : Device :=
  let r := ofLE (d.sramRead (d.recordKey s n) 32)
  let f := d.flowOf s
  let f1 := { f with recNo := n, record := r, retries := 0, waitSince := none, result := 0, limitHit := false, binSet := false,
                     firstFail := false, samples := 0, acc := 0, value := 0, valueOk := false, begin_ := d.ringNs,
                     end_ := d.ringNs, beginCycle := d.cycle, beginFails := d.siteFails s, calTiles := 0,
                     calRejected := false, logOffered := 0 }
  fetchEnds s n f1 (d.fetchError s n r) ((d.w (siteIx s) 0x33 n).setFlow s f1)

/-! ## Step boundaries (R186) -/

/-- Flow progress (R211): capped at 99 while the flow runs. -/
def settleSteps (s : Nat) (d : Device) : Device :=
  let n := d.o (siteIx s) 0x34
  let expected := d.act (siteIx s) 0x24
  (d.w (siteIx s) 0x36 n).w (siteIx s) 0x35 (if expected = 0 then 0 else min 99 (100 * n / expected))

/-- The successor that the code names (R202, R203). -/
def successor (r code : Nat) : Nat :=
  if code = resPass then recPass r
  else if code = resNotAdmitted ∧ recNotAdmitted r ≠ 0xFFFF then recNotAdmitted r
  else recFail r

/-- The CFE of the site's host cluster is clocked: its tile is in ACTIVE or STANDBY (R23, R368). -/
def cfeRuns (d : Device) (s : Nat) : Bool := decide (d.powerState (d.hostCluster s / 4) ≤ 1)

/-- The host tile of a site has its clocks and its power, and its CFE runs (R23, R26, R188). -/
def siteClocked (d : Device) (s : Nat) : Bool :=
  d.clocked (d.hostCluster s / 4) && d.o 0x1300 0x12 != 2 && d.cfeRuns s

/-- Steps 3 to 5 of R186. An abort replaces the successor (R187); a flow that REFCLK loss or heat ends does so (R26, R383). -/
def afterRecord (s : Nat) (d : Device) : Device :=
  let f := d.flowOf s
  let code := f.result
  let limit := d.act (siteIx s) 0x21
  let abortTo := d.act (siteIx s) 0x1B
  let go (n : Nat) (e : Device) : Device :=
    if limit ≠ 0 ∧ d.o (siteIx s) 0x34 = limit then endFlow s resStepLimit e else fetchStep s n e
  if f.ending.isSome then endFlow s (f.ending.getD 0) d
  else if resRecordError ≤ code ∧ code ≠ resAborted then endFlow s code d
  else if f.aborting || code == resAborted then
    if abortTo ≠ 0xFFFF ∧ f.abortFlow = false then go abortTo (d.setFlow s { f with abortFlow := true, aborting := false })
    else endFlow s resAborted d
  else go (successor f.record code) d

/-- Step 2 of R186: the step's record is written, or the site waits for a credit. An END step has no record of its own. -/
def stepRecord (s : Nat) (d : Device) : Device :=
  let f := d.flowOf s
  if recOpcode f.record = opEnd then afterRecord s d
  else if d.recordRoom s then afterRecord s (writeRecord s (recordKind (recOpcode f.record)) f.result d)
  else settleTiles ((setSiteState d s siteWaiting).setFlow s { f with phase := .credit })

/-- Step 1 of R186 and the counts: the fail bin (R199), the code that BRANCH looks at (R198), and the value that DATALOG takes
from the last PARAM-MEASURE (R200). -/
def stepBin (s : Nat) (d : Device) : Device :=
  let f := d.flowOf s
  let op := recOpcode f.record
  let keep := op == opBranch || op == opBin || op == opDatalog
  let d1 := if f.result ≠ 0 ∧ op ≠ opBin ∧ binValid (recBin f.record) = true ∧ d.o (siteIx s) 0x38 = 0xFFFF then
      setBin s (recBin f.record) d else d
  let d2 := d1.setFlow s { d1.flowOf s with
    lastCode := if keep then f.lastCode else f.result, lastValue := if op = opParamMeasure then f.value else f.lastValue }
  settleSteps s (d2.addWrap (siteIx s) 0x34 4 1)

/-- A completed step's boundary is processed (R186 steps 1 to 5). -/
def stepCompleteOp (s : Nat) (d : Device) : Device :=
  if (d.flowOf s).phase = .complete ∧ d.siteClocked s then stepRecord s (stepBin s d) else d

/-- A credit has arrived for a record that waits (R186 step 2, R188). -/
def recordWriteOp (s : Nat) (d : Device) : Device :=
  let f := d.flowOf s
  if d.recordRoom s = false ∨ d.siteClocked s = false then d
  else match f.phase, f.ending with
    | .credit, _ => afterRecord s (setSiteState (writeRecord s (recordKind (recOpcode f.record)) f.result d) s siteRunning)
    | .endCredit, some code => closeFlow s code (writeRecord s 3 code d)
    | _, _ => d

/-- A step held at its boundary is reported with `code`: its begin and end times are equal (R187, R26). -/
def reportHeld (s code : Nat) (d : Device) : Device :=
  let f := d.flowOf s
  d.setFlow s { f with phase := .complete, result := code, begin_ := d.ringNs, end_ := d.ringNs, beginFails := d.siteFails s }

/-! ## Starts (R184, R185) -/

/-- R185. -/
def beginFlow (s : Nat) (d : Device) : Device :=
  let d1 := each (fun n e => e.w (clusterIx (n / 16)) (0x10 + n % 16) 0) (d.siteChans s) (d.w (siteIx s) 0x37 0)
  let d2 := ((rearmFirst s (d1.w (siteIx s) 0x43 0)).w (siteIx s) 0x38 0xFFFF).w (siteIx s) 0x39 0xFF
  let d3 := settleSteps s ((d2.w (siteIx s) 0x34 0).addWrap (siteIx s) 0x3E 4 1)
  fetchStep s (d.act (siteIx s) 0x1A)
    (setSiteState (d3.setFlow s { Flow.init with logDropped := (d3.flowOf s).logDropped }) s siteRunning)

def ignoreStart (s : Nat) (d : Device) : Device := d.addSat (siteIx s) 0x3D 4 1

/-- A start at its instant: it takes effect when the site is IDLE and has a flow, and the part does not stop for heat; its
actions wait for the CFE of its host tile (R373). While REFCLK is lost a start of an IDLE site takes effect as at any other time
(DESIGN CHOICE, log entry 95). -/
def startSite (s : Nat) (d : Device) : Device :=
  if d.siteState s = siteIdle ∧ d.act (siteIx s) 0x19 ≠ 0 ∧ d.stopping = false ∧ d.failed = false ∧
      d.sites.woken.contains s = false then
    if d.cfeRuns s then beginFlow s d
    else settleTiles { d with sites := { d.sites with woken := d.sites.woken ++ [s] } }
  else ignoreStart s d

/-- The CFE of a woken host tile performs a start that waited for it (R373). -/
def wakeStart (t s : Nat) (d : Device) : Device :=
  if d.sites.woken.contains s ∧ d.hostCluster s / 4 = t ∧ d.cfeRuns s = true then
    beginFlow s { d with sites := { d.sites with woken := d.sites.woken.filter fun k => k != s } }
  else d

/-- A host start of one site (R184). -/
def hostStart (time s : Nat) (d : Device) : Device :=
  if d.o (siteIx s) 0x07 ≠ 32 then ignoreStart s d
  else if time ≤ d.ringNs then startSite s { d with sites := { d.sites with starts := Cells.write 0 s 0 d.sites.starts } }
  else { d with sites := { d.sites with starts := Cells.write 0 s time d.sites.starts } }

/-- The site-start record (R184). -/
def siteStartOp (sites time : Nat) (d : Device) : Device :=
  each (hostStart time) ((List.range 128).filter fun s => sites.testBit s) d

/-- The first sequencer cycle at or after a start's ring time (R25). -/
def startTimeOp (s : Nat) (d : Device) : Device :=
  let t := Cells.read 0 s d.sites.starts
  if t ≠ 0 ∧ t ≤ d.ringNs then startSite s { d with sites := { d.sites with starts := Cells.write 0 s 0 d.sites.starts } }
  else d

/-- A rising edge of a trigger line reaches the CFEs (R184). -/
def lineStartOp (l : Nat) (d : Device) : Device :=
  if bit d.linesAsserted l && !(bit d.event.linePrev l) then
    each startSite ((List.range 128).filter fun s => d.siteMask s != 0 && d.o (siteIx s) 0x07 == l) d
  else d

/-! ## RUN-PATTERN: descriptor, admission, begin (R119, R120, R192, R193, R203) -/

def descOffset (r : Nat) : Nat := 64 * fld r 12 4

/-- The descriptor as tile `t` holds it. -/
def descriptor (d : Device) (t off : Nat) : Nat := d.sdramNat (tileBase t + off) descSize

/-- The 576 bytes do not lie in READY SDRAM of the tile (R119). -/
def descAbsent (d : Device) (off t : Nat) : Bool := !(d.memReady t) || !(d.inTile t off descSize)

def readPoison (d : Device) (a n : Nat) : Bool :=
  (List.range ((a % 64 + n + 63) / 64)).any fun i => d.bestEffortPoison (a / 64 + i)

/-- A word that the checks read is poisoned: a descriptor, or the entry block's table entry (R119). -/
def descPoisoned (d : Device) (s off : Nat) : Bool :=
  ((d.siteTiles s).any fun t => !(d.descAbsent off t) && d.readPoison (tileBase t + off) descSize) ||
  (d.siteQuads s).any fun q =>
    let x := d.descriptor (q / 16) off
    !(d.descAbsent off (q / 16)) && !(descBad x) && decide (entryTable x (q % 16) + 8 * descBlocks x ≤ d.tileCapacity (q / 16)) &&
    d.readPoison (quadAddr q (entryTable x (q % 16) + 8 * descEntry x)) 8

/-- The quad's entry fails a check of R119. -/
def entryBad (d : Device) (s off q : Nat) : Bool :=
  let t := q / 16
  let k := q % 16
  let x := d.descriptor t off
  !(descPresent x k) || (entryKind x k != if q = d.leadQuad s then 1 else 0) ||
  !(d.inTile t (entryBase x k) (entryLength x k)) || !(d.inTile t (entryTable x k) (8 * descBlocks x)) ||
  !(d.inTile t (entryBase x k + entryResOff x k) (entryResLen x k)) ||
  decide (entryLength x k < entryResOff x k + entryResLen x k)

/-- PATTERN-LAYOUT (R119). -/
def layoutBad (d : Device) (s off : Nat) : Bool :=
  let tiles := d.siteTiles s
  let first := d.descriptor (d.leadQuad s / 16) off
  tiles.any (d.descAbsent off) ||
  tiles.any (fun t => descBad (d.descriptor t off) || fld (d.descriptor t off) 0 20 != fld first 0 20) ||
  (d.siteQuads s).any (d.entryBad s off)

/-- The result of the checks of R119, 0 when they pass. -/
def descResult (d : Device) (s off : Nat) : Nat :=
  if d.descPoisoned s off then resPoisoned
  else if d.layoutBad s off then resLayout
  else if d.o 0x1260 0x04 < descLevel (d.descriptor (d.leadQuad s / 16) off) then resMicrocode
  else 0

/-- The step's demand (R22, R169, R253): the declared slots of every tile, and the fail log's allotment. -/
def streamDemand (d : Device) (s off : Nat) : List (Nat × Nat) :=
  (d.siteTiles s).flatMap fun t => (List.range 4).map fun i => (4 * t + i, descDemand (d.descriptor t off) i)

def logDemand (d : Device) (s : Nat) : List (Nat × Nat) :=
  let q := d.failQueue s
  let n := d.o 0x1600 0x05
  if n = 0 ∨ q = noQueue ∨ d.queuePlacement q ≠ 0 then [] else (d.tileSubs (queueTile q)).map fun j => (j, n)

/-- A request for admission (R253): all or nothing. -/
def tryAdmit (s : Nat) (d : Device) : Device :=
  let f := d.flowOf s
  let off := descOffset f.record
  if d.demandFits (d.streamDemand s off ++ d.logDemand s) then
    let d1 := addGrant 4 s (d.logDemand s) (addGrant 3 s (d.streamDemand s off) d)
    settleTiles ((setSiteState d1 s siteRunning).setFlow s { f with phase := .admitted })
  else if recNotAdmitted f.record ≠ 0xFFFF then reportHeld s resNotAdmitted d
  else
    settleTiles ((setSiteState d s siteWaiting).setFlow s
      { f with phase := .admission, waitSince := some (f.waitSince.getD d.cycle), askedPeriod := d.mem.period })

/-- Steps 6 and 7 of R186 for a RUN-PATTERN step: the descriptor, then admission. -/
def admissionOp (s : Nat) (d : Device) : Device :=
  let f := d.flowOf s
  if f.phase ≠ .boundary ∨ recOpcode f.record ≠ opRunPattern then d
  else if d.siteHeld s then settleTiles (setSiteState d s siteWaiting)
  else
    let code := d.descResult s (descOffset f.record)
    if code ≠ 0 then reportHeld s code d else tryAdmit s d

/-- The tiles that the step uses (R203, R253): those of the site, and that of the fail queue's body where the log asks for slots. -/
def stepTiles (d : Device) (s : Nat) : List Nat :=
  if (d.logDemand s).isEmpty then d.siteTiles s else queueTile (d.failQueue s) :: d.siteTiles s

/-- A table-period boundary has passed since grants were released in a tile that the step uses, and the site has not asked since
(R203). -/
def retryDue (d : Device) (s : Nat) : Bool :=
  (d.stepTiles s).any fun t => decide ((d.flowOf s).askedPeriod < Cells.read 0 t d.mem.freedPeriod)

/-- A request is repeated at the first table-period boundary after a release (R203), unless step 6 of R186 holds the site
again (R21). -/
def retryAdmissionOp (s : Nat) (d : Device) : Device :=
  let f := d.flowOf s
  if f.phase = .admission ∧ d.siteHeld s = false ∧ d.siteClocked s = true ∧ d.retryDue s = true then
    tryAdmit s (d.setFlow s { f with retries := f.retries + 1 })
  else d

/-- The admission wait limit runs out (R203). -/
def admissionExpiryOp (s : Nat) (d : Device) : Device :=
  let f := d.flowOf s
  let limit := d.act (siteIx s) 0x22
  match f.phase, f.waitSince with
  | .admission, some c => if limit ≠ 0 ∧ c + 1000 * limit ≤ d.cycle then reportHeld s resNotAdmitted d else d
  | _, _ => d

/-- The step begins (R186 step 8). -/
def beginStep (s : Nat) (d : Device) : Device :=
  let f := d.flowOf s
  (setSiteState d s siteRunning).setFlow s
    { f with phase := .running, begin_ := d.ringNs, beginCycle := d.cycle, beginFails := d.siteFails s }

/-- A step that may begin now: at its boundary, not held, of opcode `op`. A held site reads WAITING. -/
def whenStep (s op : Nat) (body : Device → Device) (d : Device) : Device :=
  let f := d.flowOf s
  if f.phase ≠ .boundary ∨ recOpcode f.record ≠ op then d
  else if d.siteHeld s then settleTiles (setSiteState d s siteWaiting)
  else body (beginStep s d)

/-- The period check (R104). -/
def periodsDiffer (d : Device) (s : Nat) : Bool :=
  (d.siteQuads s).any fun q => (List.range 64).any fun k =>
    timePeriod (d.act (quadIx q) (0x20 + k)) != timePeriod (d.act (quadIx (d.leadQuad s)) (0x20 + k))

/-- The preload block (R193): where its dictionary entries start, its length, and whether it is malformed. -/
def preloadDicts (v : Nat) : Nat := if bit (fld v 0 1) 0 then 80 else 16

def preloadSize (v : Nat) : Nat := preloadDicts v + 3088 * fld v 4 4

/-- The bytes of the block, as far as cluster SRAM goes. -/
def preloadBlock (d : Device) (s off : Nat) : Nat :=
  let c := d.hostCluster s
  let head := ofLE (d.sramRead (sramKey c off) 16)
  ofLE (d.sramRead (sramKey c off) (min (preloadSize head) (1048576 - off)))

def preloadQuad (v i : Nat) : Nat := fld v (preloadDicts v + 3088 * i) 1

def preloadMalformed (d : Device) (s off v : Nat) : Bool :=
  let n := fld v 4 4
  let dicts := bit (fld v 0 1) 2
  decide (1048576 < off + preloadSize v) || fld v 0 1 / 8 != 0 || fld v 2 2 != 0 || fld v 8 8 != 0 ||
  (!dicts && n != 0) || decide ((d.siteQuads s).length < n) ||
  (List.range n).any (fun i => !((d.siteQuads s).contains (preloadQuad v i)) ||
    fld v (preloadDicts v + 3088 * i + 1) 15 != 0 ||
    (List.range i).any fun j => preloadQuad v j == preloadQuad v i)

def loadDictionary (q v : Nat) (d : Device) : Device :=
  each (fun k e => e.w (quadIx q) (0xE0 + k) (fld v (192 * k) 192)) (List.range 16) d

/-- The block is applied (R193): counters and flags of the lead quad, dictionaries of the site's quads. -/
def applyPreload (s v : Nat) (d : Device) : Device :=
  let l := quadIx (d.leadQuad s)
  let d1 := if bit (fld v 0 1) 0 then d.w l 0x68 (fld v 16 64) else d
  let d2 := if bit (fld v 0 1) 1 then d1.w l 0x69 (fld v 1 1) else d1
  if bit (fld v 0 1) 2 then
    each (fun i e => loadDictionary (preloadQuad v i) (fld v (preloadDicts v + 3088 * i + 16) 3072) e) (List.range (fld v 4 4)) d2
  else d2

/-- The streams of the site's quads from the descriptor, and the objects of a new pattern (R118, R153, R181). -/
def openStream (off q : Nat) (d : Device) : Device :=
  let x := d.descriptor (q / 16) off
  let k := q % 16
  let st : Stream := { Stream.init with base := entryBase x k, length := entryLength x k, table := entryTable x k,
                                        resOff := entryResOff x k, resLen := entryResLen x k }
  let d1 := each (fun sub e => e.w (quadIx q) sub 0) [0x63, 0x64, 0x74, 0x76, 0x77, 0x79, 0x7A, 0x7B, 0x7D, 0x7E, 0x7F]
    (d.setStream q st)
  ((d1.w (quadIx q) 0x75 noQuad).w (quadIx q) 0x65 off).w (quadIx q) 0x7C st.resLen

/-- The stream position of the entry block is where preload begins (R167). -/
def seekEntry (s b q : Nat) (d : Device) : Device :=
  let x := d.streamOf q
  let e := x.skip (d.entryOf s q b)
  d.setStream q { x with pos := e, fetched := e }

/-- Preload begins (R120): the lead sequencer issues from the entry block. -/
def beginPreload (s off : Nat) (d : Device) : Device :=
  let x := d.descriptor (d.leadQuad s / 16) off
  let z : Seq := { Seq.init with phase := .preload, blocks := descBlocks x, next := descEntry x, streamNext := descEntry x,
                                 issuing := true, issueFree := d.cycle, allowance := descAllowance x }
  let d1 := each (openStream off) (d.siteQuads s) (d.setSeq s z)
  let d2 := each (seekEntry s (descEntry x)) (d.siteQuads s) d1
  settleSeq s (markSnap s d2)

/-- RUN-PATTERN (R192). A tile of the site that is throttled, calibrates or leaves ACTIVE after the admission holds the step
(R21). -/
def runPatternOp (s : Nat) (d : Device) : Device :=
  let f := d.flowOf s
  if f.phase ≠ .admitted ∨ d.siteClocked s = false then d
  else if d.siteHeld s then settleTiles (setSiteState d s siteWaiting)
  else
    let d1 := logStep s (beginStep s d)
    let pre := fld f.record 16 4
    let v := d.preloadBlock s pre
    let fail (code : Nat) : Device := settleTiles (closeLog s (finishStep s code (releaseGrants s d1)))
    if d.periodsDiffer s then fail resPeriod
    else if pre ≠ 0 ∧ d.sramPoisoned (sramKey (d.hostCluster s) pre) (min (preloadSize v) (1048576 - pre)) = true then
      fail resPoisoned
    else if pre ≠ 0 ∧ d.preloadMalformed s pre v = true then fail resRecordError
    else beginPreload s (descOffset f.record) (if pre = 0 then d1 else applyPreload s v d1)

/-! ## PARAM-MEASURE (R195) -/

/-- The channel that a channel kind's resource names. -/
def measChannel (d : Device) (s r : Nat) : Nat := (d.siteChans s).getD (measResource r) 512

/-- The required state does not hold at step begin. -/
def measMismatch (d : Device) (s r : Nat) : Bool :=
  let n := d.measChannel s r
  match measKind r with
  | 0 => d.ppmuMode n != 2 && d.ppmuMode n != 3
  | 1 => d.ppmuMode n != 1
  | 2 => !(d.dpsOn (measResource r))
  | 3 => !(d.dpsOn (measResource r))
  | 4 => decide (1 < d.o (chanIx n) 0x1B)
  | _ => d.o (chanIx n) 0x1B != 2

def paramMeasureOp (s : Nat) (d : Device) : Device :=
  whenStep s opParamMeasure (fun e =>
    let r := (e.flowOf s).record
    let n := e.measChannel s r
    if e.measMismatch s r then finishStep s resModeMismatch e
    else if measKind r < 4 then e
    else if e.tmuRefusal n ≠ 0 then finishStep s resMeasureError (armBatch n (measCount r) e)
    else armBatch n (measCount r) e) d

/-- The reduced value (R195): MEAN is rounded toward zero. -/
def reduced (f : Flow) : Int := if measReduction f.record = 0 then tdiv f.acc (measCount f.record) else f.acc

/-- The value lies within the limits that are enabled. -/
def withinLimits (r : Nat) (v : Int) : Bool :=
  let k : Int := if measKind r < 4 then 1 else 1000
  (bit (recFlags r) 0 || decide (k * recLow r ≤ v)) && (bit (recFlags r) 1 || decide (v ≤ k * recHigh r))

def measurementDoneOp (s : Nat) (d : Device) : Device :=
  let f := d.flowOf s
  if d.runsStep s opParamMeasure = false ∨ f.samples < measCount f.record then d
  else
    let v := reduced f
    let d1 := d.setFlow s { f with value := v, valueOk := true }
    finishStep s (if withinLimits f.record v then resPass else resFail) d1

/-! ## DPS-SET and SETTLE (R196, R197) -/

def dpsSetOp (s : Nat) (d : Device) : Device :=
  whenStep s opDpsSet (fun e =>
    let r := (e.flowOf s).record
    let k := fld r 12 1
    let i := dpsIx k
    let e1 := ((((e.w i 0x01 1).w i 0x02 (code24 (fld r 16 4))).w i 0x03 (fld r 13 1)).w i 0x05 (fld r 20 4)).w i 0x04 (fld r 24 4)
    let e2 := dpsCommitOp k e1
    if e2.get (dpsStatusKey k) = codePending then e2 else finishStep s resDpsRefused e2) d

/-- The SETTLE's time has elapsed and its DPS channel, if it names one, reads SETTLED. -/
def settled (d : Device) (s : Nat) : Bool :=
  let f := d.flowOf s
  let k := fld f.record 12 1
  decide (f.beginCycle + fld f.record 16 4 ≤ d.cycle) && (k == 255 || d.o (dpsIx k) 0x23 == 3)

def settleStepOp (s : Nat) (d : Device) : Device :=
  whenStep s opSettle (fun e =>
    let r := (e.flowOf s).record
    if fld r 16 4 = 0 ∧ fld r 12 1 = 255 then finishStep s resPass e else e) d

def settleDoneOp (s : Nat) (d : Device) : Device :=
  if d.runsStep s opSettle && d.settled s then finishStep s resPass d else d

/-! ## BRANCH, BIN, DATALOG, CALIBRATE-POINT, END (R198 to R201) -/

/-- The condition of BRANCH before NEG (R198). -/
def branchTest (d : Device) (s : Nat) : Bool :=
  let f := d.flowOf s
  let r := f.record
  let c := fld r 12 1
  if c < 8 then bit (d.seqFlags s) c
  else if 0x10 ≤ c ∧ c ≤ 0x1F then counterOf (d.seqCounters s) (c - 16) != 0
  else if c = 0x20 then f.lastCode != 0
  else if c = 0x22 then d.siteFails s != 0
  else if c = 0x23 then
    let v := counterOf (d.seqCounters s) (fld r 14 1)
    decide (fld r 20 4 ≤ v) && decide (v ≤ fld r 24 4)
  else true

def branchOp (s : Nat) (d : Device) : Device :=
  whenStep s opBranch (fun e =>
    let r := (e.flowOf s).record
    let k := fld r 12 1 - 16
    let v := e.branchTest s != bit (fld r 13 1) 0
    let e1 := if bit (fld r 13 1) 1 then setCounter s k (counterOf (e.seqCounters s) k - 1) e else e
    finishStep s (if v then resPass else resFail) e1) d

def binOp (s : Nat) (d : Device) : Device :=
  whenStep s opBin (fun e => finishStep s resPass (setBin s (recBin (e.flowOf s).record) e)) d

/-- The value that DATALOG selects (R200). -/
def logValue (d : Device) (s : Nat) : Int :=
  let f := d.flowOf s
  let k := fld f.record 14 2
  match fld f.record 12 1 with
  | 0 => counterOf (d.seqCounters s) k
  | 1 => d.seqFlags s
  | 2 =>
    let n := (d.siteChans s).getD k 0
    d.o (clusterIx (n / 16)) (0x10 + n % 16)
  | 3 => d.siteFails s
  | 4 => f.lastValue
  | _ => f.begin_

def datalogOp (s : Nat) (d : Device) : Device :=
  whenStep s opDatalog (fun e => finishStep s resPass (e.setFlow s { e.flowOf s with value := e.logValue s, valueOk := true })) d

/-- CALIBRATE-POINT: DUE acts on what is due, NOW requests both kinds; the step waits for the tiles that calibrate. -/
def calibratePointOp (s : Nat) (d : Device) : Device :=
  whenStep s opCalibrate (fun e =>
    let now := fld (e.flowOf s).record 12 1 == 1
    let tiles := e.siteTiles s
    let e1 := each (fun t x => if now then calDue 3 3 t x else calActOnDue t x) tiles e
    let waits := tiles.filter fun t => e1.calState t != 0
    if waits.isEmpty then finishStep s resPass e1
    else e1.setFlow s { e1.flowOf s with calTiles := (waits.map fun t => 2 ^ t).sum }) d

/-- END (R188): its only record is the END record. -/
def endStepOp (s : Nat) (d : Device) : Device :=
  whenStep s opEnd (fun e => endFlow s resPass (e.setFlow s { e.flowOf s with end_ := e.ringNs, phase := .complete })) d

/-! ## Aborts and timeouts (R187, R204) -/

/-- A running step is stopped with `code`; a pattern that has already stopped keeps its result. -/
def stopStep (s code : Nat) (d : Device) : Option Device :=
  let f := d.flowOf s
  if f.phase ≠ .running then none
  else if recOpcode f.record ≠ opRunPattern then some (finishStep s code d)
  else match (d.seqOf s).phase with
    | .ending => none
    | .off => none
    | _ => some (stopPattern s haltStopped (d.setFlow s { f with result := code }))

/-- A write of 1 to a site's abort object (R187). -/
def abortOp (s : Nat) (d : Device) : Device :=
  let f := d.flowOf s
  if !(d.siteBusy s) then d
  else match f.phase with
    | .boundary => settleTiles (reportHeld s resAborted d)
    | .admission => settleTiles (reportHeld s resAborted d)
    | .admitted => settleTiles (reportHeld s resAborted (releaseGrants s d))
    | .running => (stopStep s resAborted d).getD (d.setFlow s { f with aborting := true })
    | .complete => d.setFlow s { f with aborting := true }
    | .credit => d.setFlow s { f with aborting := true }
    | _ => d

/-- The step timeout (R204). -/
def stepTimeoutOp (s : Nat) (d : Device) : Device :=
  let f := d.flowOf s
  let limit := d.act (siteIx s) 0x20
  if limit ≠ 0 ∧ f.beginCycle + 1000 * limit ≤ d.cycle then (stopStep s resTimeout d).getD d else d

/-! ## CFE wake (R295) -/

/-- A woken flow interpreter examines what holds a site's step at its boundary: the step begins if nothing holds it any longer. -/
def reexamine (s : Nat) (d : Device) : Device :=
  let f := d.flowOf s
  if d.siteState s ≠ siteWaiting then d
  else if f.phase = .admission then retryAdmissionOp s d
  else if f.phase = .admitted then runPatternOp s d
  else if f.phase = .boundary then
    [admissionOp, paramMeasureOp, dpsSetOp, settleStepOp, branchOp, binOp, datalogOp, calibratePointOp, endStepOp].foldl
      (fun e step => if (e.flowOf s).phase = .boundary ∧ (e.flowOf s).recNo = f.recNo then step s e else e) d
  else d

/-- The CFEs woken in this cycle examine the sites that they host. -/
def wakeFlows (d : Device) : Device :=
  each reexamine ((List.range 128).filter fun s => d.siteMask s != 0 && bit d.event.cfeWake (d.hostCluster s)) d

/-- EVENT_DELIVERY: the CFEs that it wakes act in the same cycle. -/
def eventDeliveryOp (d : Device) : Device :=
  if d.event.raised.head?.any fun x => decide (x.cycle + 4 ≤ d.cycle) then
    let d1 := deliveryOp d
    if d1.event.cfeWake = 0 then d1 else wakeFlows d1
  else d

end Device

/-! ## Meanings -/

open Device

/-- EVENT_DELIVERY (R294, R295, R297, R299). -/
def execEventDelivery (s : State) : Host.Outcome State Fault Refusal := nextDev s (eventDeliveryOp s.dev)

/-- SITE_COMMIT (R14, R15, R59). -/
def execSiteCommit (p : Port) (s : Site) (v : Byte) (st : State) : Host.Outcome State Fault Refusal :=
  nextDev st (hostWrite st.dev p (siteIx s.val) 0x0F v.toNat false (siteCommitOp s.val))

/-- SITE_COMMIT_PROCESS (R15). -/
def execSiteCommitProcess (st : State) : Host.Outcome State Fault Refusal := nextDev st (siteProcessOp st.dev)

/-- SITE_START (R184). -/
def execSiteStart (p : Port) (sites : BitVec 128) (time : BitVec 64) (st : State) : Host.Outcome State Fault Refusal :=
  nextDev st (hostWrite st.dev p 0x1000 0x20 (sites.toNat + 2 ^ 128 * time.toNat) false (siteStartOp sites.toNat time.toNat))

/-- TRIGGER_LINE_START (R184). -/
def execTriggerLineStart (line : Line) (st : State) : Host.Outcome State Fault Refusal := nextDev st (lineStartOp line.val st.dev)

/-- START_TIME_REACHED (R25, R184). -/
def execStartTimeReached (s : Site) (st : State) : Host.Outcome State Fault Refusal := nextDev st (startTimeOp s.val st.dev)

/-- STEP_COMPLETE (R186). -/
def execStepComplete (s : Site) (st : State) : Host.Outcome State Fault Refusal := nextDev st (stepCompleteOp s.val st.dev)

/-- RESULT_RECORD_WRITE (R186, R188). -/
def execResultRecordWrite (s : Site) (st : State) : Host.Outcome State Fault Refusal := nextDev st (recordWriteOp s.val st.dev)

/-- ADMISSION_REQUEST (R22, R119, R186, R253). -/
def execAdmissionRequest (s : Site) (st : State) : Host.Outcome State Fault Refusal := nextDev st (admissionOp s.val st.dev)

/-- ADMISSION_RETRY (R203). -/
def execAdmissionRetry (s : Site) (st : State) : Host.Outcome State Fault Refusal := nextDev st (retryAdmissionOp s.val st.dev)

/-- ADMISSION_WAIT_EXPIRY (R203). -/
def execAdmissionWaitExpiry (s : Site) (st : State) : Host.Outcome State Fault Refusal := nextDev st (admissionExpiryOp s.val st.dev)

/-- RUN_PATTERN (R192, R193). -/
def execRunPattern (s : Site) (st : State) : Host.Outcome State Fault Refusal := nextDev st (runPatternOp s.val st.dev)

/-- PARAM_MEASURE (R195). -/
def execParamMeasure (s : Site) (st : State) : Host.Outcome State Fault Refusal := nextDev st (paramMeasureOp s.val st.dev)

/-- MEASUREMENT_DONE (R195). -/
def execMeasurementDone (s : Site) (st : State) : Host.Outcome State Fault Refusal := nextDev st (measurementDoneOp s.val st.dev)

/-- DPS_SET (R196). -/
def execDpsSet (s : Site) (st : State) : Host.Outcome State Fault Refusal := nextDev st (dpsSetOp s.val st.dev)

/-- SETTLE (R197). -/
def execSettle (s : Site) (st : State) : Host.Outcome State Fault Refusal := nextDev st (settleStepOp s.val st.dev)

/-- SETTLE_DONE (R197). -/
def execSettleDone (s : Site) (st : State) : Host.Outcome State Fault Refusal := nextDev st (settleDoneOp s.val st.dev)

/-- BRANCH (R198). -/
def execBranch (s : Site) (st : State) : Host.Outcome State Fault Refusal := nextDev st (branchOp s.val st.dev)

/-- BIN (R199). -/
def execBin (s : Site) (st : State) : Host.Outcome State Fault Refusal := nextDev st (binOp s.val st.dev)

/-- DATALOG (R200). -/
def execDatalog (s : Site) (st : State) : Host.Outcome State Fault Refusal := nextDev st (datalogOp s.val st.dev)

/-- CALIBRATE_POINT (R201). -/
def execCalibratePoint (s : Site) (st : State) : Host.Outcome State Fault Refusal := nextDev st (calibratePointOp s.val st.dev)

/-- END (R188). -/
def execEndStep (s : Site) (st : State) : Host.Outcome State Fault Refusal := nextDev st (endStepOp s.val st.dev)

/-- ABORT (R187). -/
def execAbort (p : Port) (s : Site) (v : Byte) (st : State) : Host.Outcome State Fault Refusal :=
  nextDev st (hostWrite st.dev p (siteIx s.val) 0x31 v.toNat false (abortOp s.val))

/-- STEP_TIMEOUT (R204). -/
def execStepTimeout (s : Site) (st : State) : Host.Outcome State Fault Refusal := nextDev st (stepTimeoutOp s.val st.dev)

end Sys2Proof.Machine
end

