-- ==== Sys2Proof/Machine/Primacy.lean ====
section
/-!
DEFINITION. The Primrose record: its copies, the three majorities, SAFE-HOLD, and the repair of a copy (R341 to R344).
-/
namespace Sys2Proof.Machine

/-- The half a copy names: 0 W, 1 E (R341). -/
def copyHalf (c : Nat) : Nat := if c % 256 = 0x57 then 0 else 1
def copyGen (c : Nat) : Nat := c / 2 ^ 16 % 2 ^ 16

/-- A copy is valid (R341). -/
def copyValid (c : Nat) : Bool := (c % 256 == 0x57 || c % 256 == 0x45) && c / 256 % 256 == 255 - c % 256

/-- A copy that names half `h` with a generation. -/
def makeCopy (h gen : Nat) : Nat := let x := if h = 0 then 0x57 else 0x45; x + (255 - x) * 2 ^ 8 + gen * 2 ^ 16

def agree (a b : Nat) : Bool := copyValid a && a == b

/-- The copy on which a majority of the three agrees (R342). -/
def majority (c : Copies) : Option Nat :=
  let a := c.c0.toNat
  let b := c.c1.toNat
  let e := c.c2.toNat
  if agree a b || agree a e then some a else if agree b e then some b else none

/-- The half that a majority names, 2 for none. -/
def majorityHalf (c : Copies) : Nat := match majority c with
  | some x => copyHalf x
  | none => 2

namespace Device

def primrose (d : Device) (k : Nat) : Nat := d.o 0x1220 (1 + k)

/-- The copies as they stand. -/
def storedCopies (d : Device) : Copies :=
  ⟨BitVec.ofNat 32 (d.primrose 0), BitVec.ofNat 32 (d.primrose 1), BitVec.ofNat 32 (d.primrose 2)⟩

/-- The copies as a half's own read path gives them: `path` has the bits it turns over (R342). -/
def seenBy (d : Device) (path : Copies) : Copies :=
  let c := d.storedCopies
  ⟨c.c0 ^^^ path.c0, c.c1 ^^^ path.c1, c.c2 ^^^ path.c2⟩

def writeCopies (v : Nat) (d : Device) : Device := ((d.w 0x1220 0x01 v).w 0x1220 0x02 v).w 0x1220 0x03 v

/-- Neither half is supervisor, and the part is in SAFE-HOLD: EV022 is raised and calibrations abort (R342, R366). -/
def enterSafeHold (d : Device) : Device :=
  if d.boot.safeHold then d
  else
    let d1 := { d with boot := { d.boot with safeHold := true } }
    let d2 := (((d1.w 0x1220 0x04 2).w 0x1230 0x02 0).w 0x1231 0x02 0).raise 22
    each abortCal (List.range 8) (if d2.boot.released = 1 then d2.w 0x1200 0x01 7 else d2)

/-- Half `h` is supervisor; the other becomes secondary and raises EV021 (R342). The supervisor commands the moves that
waited for it (R20). -/
def makeSupervisor (h : Nat) (d : Device) : Device :=
  settleTiles (((((d.w 0x1220 0x04 h).w (0x1230 + h) 0x02 1).w (0x1230 + (1 - h)) 0x02 0)).raise 21)

/-- Primacy is decided by the three majorities (R342). -/
def decidePrimacy (arbiter halfW halfE : Copies) (d : Device) : Device :=
  let h := majorityHalf arbiter
  let d1 := (d.w 0x1220 0x05 (majorityHalf halfW)).w 0x1220 0x06 (majorityHalf halfE)
  if h = 2 ∨ (if h = 0 then majorityHalf halfW else majorityHalf halfE) ≠ h then enterSafeHold d1 else makeSupervisor h d1

/-- A copy that differs from the majority is rewritten from it (R343). -/
def repairCopy (good k : Nat) (d : Device) : Device :=
  if d.primrose k = good then d else (d.w 0x1220 (1 + k) good).addSat 0x1220 0x09 4 1

/-- What a half's read path turns over, where the arbiter reads `a` and the half `h`. -/
def pathOf (a h : Copies) : Copies := ⟨a.c0 ^^^ h.c0, a.c1 ^^^ h.c1, a.c2 ^^^ h.c2⟩

/-- The arbiter re-reads the copies (R343): what the three readers see is decided on; the role never moves. Where a half reads other
copies than the arbiter, its read path does so from then on (DESIGN CHOICE, log entry 71). -/
def rereadOp (arbiter halfW halfE : Copies) (d : Device) : Device :=
  let d0 := { d with boot := { d.boot with pathW := pathOf arbiter halfW, pathE := pathOf arbiter halfE } }
  let d1 := (((d0.w 0x1220 0x01 arbiter.c0.toNat).w 0x1220 0x02 arbiter.c1.toNat).w 0x1220 0x03 arbiter.c2.toNat)
  let d2 := (d1.w 0x1220 0x05 (majorityHalf halfW)).w 0x1220 0x06 (majorityHalf halfE)
  let d3 := match majority arbiter with
    | some good => each (repairCopy good) [0, 1, 2] d2
    | none => d2
  let h := majorityHalf arbiter
  let lost := h == 2 || (if h = 0 then majorityHalf halfW else majorityHalf halfE) != h
  if d.o 0x1220 0x04 ≤ 1 ∧ lost = true then enterSafeHold d3 else d3

/-- The generation one higher than the highest among the valid copies, wrapping from 65,535 to 1 (R344). -/
def nextGen (d : Device) : Nat :=
  let g := (((List.range 3).map d.primrose).filter copyValid).foldl (fun m c => max m (copyGen c)) 0
  if g = 65535 then 1 else g + 1

/-- All three copies name half `h` (R344). -/
def assignPrimacy (h : Nat) (d : Device) : Device :=
  let d1 := writeCopies (makeCopy h d.nextGen) { d with boot := { d.boot with safeHold := false, pendingPrimacy := none } }
  decidePrimacy d1.storedCopies (d1.seenBy d1.boot.pathW) (d1.seenBy d1.boot.pathE) d1

/-- What keeps a change of primacy off outside SAFE-HOLD (R344). -/
def primacyBusy (d : Device) : Bool :=
  (List.range 128).any d.siteBusy || !d.mem.grants.isEmpty || d.headEnabled 0 || d.headEnabled 1

end Device
end Sys2Proof.Machine
end

