-- ==== Sys2Proof/Machine/Raster.lean ====
section
/-!
DEFINITION. The raster source (chapter 12): setup and its checks (R308 to R313, R317, R326), enable and admission (R318,
R319), frame addresses and leases (R322 to R325), lines, blending and the source CRC (R315, R316, R320, R327), the latch
instant (R314, R323), underrun (R328) and events (R329).
-/
namespace Sys2Proof.Machine

/-! ## Pixels (R315 to R317) -/

/-- Bytes per pixel of a layer format. -/
def pixelBytes (fmt : Nat) : Nat := if fmt = 0 then 0 else if fmt = 1 then 2 else if fmt = 2 then 3 else 4

/-- A pixel's components, widened to 8 bits. -/
structure Pixel where
  r : Nat
  g : Nat
  b : Nat
  alpha : Nat
deriving DecidableEq, Repr

/-- The pixel that a stored value spells in a format (R315). -/
def pixelOf (fmt v : Nat) : Pixel :=
  if fmt = 1 then
    let r := v / 2 ^ 11 % 32
    let g := v / 2 ^ 5 % 64
    let b := v % 32
    ⟨r * 8 + r / 4, g * 4 + g / 16, b * 8 + b / 4, 255⟩
  else ⟨v / 2 ^ 16 % 256, v / 2 ^ 8 % 256, v % 256, v / 2 ^ 24 % 256⟩

/-- The pixels of a line's bytes. -/
def pixelsOf (fmt : Nat) : Nat → List Byte → List Pixel
  | 0, _ => []
  | n + 1, l => pixelOf fmt (ofLE (l.take (pixelBytes fmt))) :: pixelsOf fmt n (l.drop (pixelBytes fmt))

/-- One component of R316. -/
def blendOne (ov base a : Nat) : Nat := (ov * a + base * (255 - a) + 127) / 255

/-- The overlay pixel over the base pixel with alpha `a` (R316). -/
def blendPixel (ov base : Pixel) (a : Nat) : Pixel :=
  ⟨blendOne ov.r base.r a, blendOne ov.g base.g a, blendOne ov.b base.b a, 255⟩

/-- The output word of width `w` (R317). -/
def outputWord (w : Nat) (p : Pixel) : Nat :=
  if w = 16 then p.r / 8 * 2 ^ 11 + p.g / 4 * 2 ^ 5 + p.b / 8
  else if w = 18 then p.r / 4 * 2 ^ 12 + p.g / 4 * 2 ^ 6 + p.b / 4
  else p.r * 2 ^ 16 + p.g * 2 ^ 8 + p.b

/-- The pixels of a line with the overlay's pixels laid over those from `x0` on (R316); `alpha` is the global alpha. -/
def blendLine (fmt alpha : Nat) : Nat → List Pixel → List Pixel → List Pixel
  | _, [], _ => []
  | _, base, [] => base
  | x0 + 1, b :: bs, ov => b :: blendLine fmt alpha x0 bs ov
  | 0, b :: bs, o :: os => blendPixel o b (if fmt = 4 then o.alpha else alpha) :: blendLine fmt alpha 0 bs os

def headDisabledState : Nat := 0
def headAdmitting : Nat := 1
def headLockWait : Nat := 2
def headRunning : Nat := 3
def headRefused : Nat := 4

/-- The owner number of a head's grant (R253). -/
def headOwner (h : Nat) : Nat := 0x200 + h

namespace Device

/-! ## Setup (R308 to R313, R317, R326) -/

def headKeys (h : Nat) : List Nat := subKeys (0x1810 + h) 0x01 17
def headStatusKey (h : Nat) : Nat := okey (0x1810 + h) 0x1E
def headState (d : Device) (h : Nat) : Nat := d.o (0x1810 + h) 0x21

/-- The number of enabled sideband signals in a sideband mask. -/
def sidebands (m : Nat) : Nat := ((List.range 4).filter fun k => bit m k).length

/-- Unit intervals per pixel (R311); 1 in PARALLEL mode. -/
def pixelUnits (mode w lanes : Nat) : Nat := if mode = 1 then (if lanes = 0 then 0 else w / lanes) else 1

/-- The pixel period in ps (R310, R311). -/
def pixelPeriod (mode w lanes period ui : Nat) : Nat := if mode = 1 then pixelUnits mode w lanes * ui else period

/-- The pixel period of a head's active setup. -/
def headPeriod (d : Device) (h : Nat) : Nat :=
  let a := d.act (0x1810 + h)
  pixelPeriod (a 0x01) (a 0x04) (a 0x05) (a 0x08) (a 0x09)

/-- Active, front porch, sync and back porch of a timing record, summed. -/
def timingTotal (r : Nat) : Nat := fld r 0 2 + fld r 2 2 + fld r 4 2 + fld r 6 2

/-- A width, height or sync of 0 (R313). -/
def timingZero (r : Nat) : Bool := fld r 0 2 == 0 || fld r 4 2 == 0

/-- A timing field above its range (R313). -/
def timingOut (r : Nat) : Bool :=
  decide (8192 < fld r 0 2) || decide (4096 < fld r 4 2) || decide (4096 < fld r 2 2) || decide (4096 < fld r 6 2)

/-- The largest rate of a head as a fraction (numerator, period in ps) exceeds a ceiling (R312, compared as in R66). -/
def headAbove (mode ui p side ceiling : Nat) : Bool :=
  if mode = 1 then decide (ceiling * ui < 1000000) || (bit side 0 && decide (ceiling * p < 2000000))
  else decide (ceiling * p < 2000000)

/-- The checks of a head setup commit on the pending copy. A SERIAL group too small for its lanes and sidebands is refused
as R310 refuses a PARALLEL one (DEDUCED, log entry 61). -/
def headCheck (h : Nat) (d : Device) : Nat :=
  let v (sub : Nat) : Nat := d.pnd (0x1810 + h) sub
  let mode := v 0x01
  let base := v 0x02
  let count := v 0x03
  let w := v 0x04
  let lanes := v 0x05
  let side := v 0x06
  let serial := mode == 1
  let split := lanes == 0 || w % max lanes 1 != 0
  let m := pixelUnits mode w lanes
  let p := pixelPeriod mode w lanes (v 0x08) (v 0x09)
  let quads := (List.range count).map fun i => base + i
  let horiz := v 0x0A
  let vert := v 0x0B
  let ow := fld (d.act (0x1830 + h) 0x04) 4 2
  let lock := v 0x11 == 1
  verdict [
    (codeBusy, d.headEnabled h || (h == 1 && lock && !d.headEnabled 0)),
    (codeConflict, quads.any fun q =>
      decide (q < 128) && ((d.siteOf q).isSome || d.o (quadIx q) 0x60 == 6) || (d.headQuads (1 - h)).contains q),
    (codeZeroRefused, count == 0 || timingZero horiz || timingZero vert),
    (codeOutOfRange, decide (1 < mode) || decide (8 < count) || decide (127 < base) || base / 16 != (base + count - 1) / 16 ||
      !([16, 18, 24].contains w) || decide (15 < side) || v 0x07 % 2 != 0 || decide (15 < v 0x07) ||
      decide (4 * count < (if serial then lanes else w) + sidebands side) ||
      (!serial && (decide (v 0x08 < 1667) || decide (1000000 < v 0x08))) || (serial && decide (1000 < v 0x09)) ||
      timingOut horiz || timingOut vert || v 0x0C == 0 || decide (3 < v 0x0C) || decide (4 < v 0x0D) ||
      v 0x0E % 64 != 0 || decide (v 0x0E < fld horiz 0 2 * pixelBytes (v 0x0C)) ||
      (v 0x0D != 0 && (v 0x0F % 64 != 0 || decide (v 0x0F < ow * pixelBytes (v 0x0D)))) || decide (1 < v 0x11) ||
      (h == 0 && v 0x11 != 0)),
    (codeGradeLimit, serial && decide (v 0x09 < shortestPeriod (d.o 0x1000 0x03))),
    (0x0161, serial && (split || (bit side 0 && m == 1))),
    (0x0162, serial && !split && decide (p < 625)),
    (0x0163, quads.any fun q => headAbove mode (v 0x09) p side (d.act (quadIx q) 0x11)),
    (0x0164, h == 1 && lock && (p != d.headPeriod 0 || horiz != d.act 0x1810 0x0A || vert != d.act 0x1810 0x0B))]

/-- The setup commit: no boundary is stated, it is applied at once after its checks (R59). -/
def headSetupOp (h : Nat) (d : Device) : Device :=
  commitBoundary (.head h) (headKeys h) (headStatusKey h) (headCheck h) id
    (commitWrite (.head h) (headKeys h) (headStatusKey h) (headCheck h) d)

/-! ## Leases (R324, R325) -/

/-- A bulk write touches a range that any token holds (R325). -/
def leaseHolds (d : Device) (b : Bulk) : Bool :=
  let hits (a : Nat) : Bool := d.heads.any fun p => p.2.leases.any fun l =>
    decide (a < l.first + l.len) && decide (l.first < a + b.data.length)
  if b.space = 0 then hits b.addr
  else if b.space = 1 then (List.range 8).any fun t => bit b.tiles t && hits (tileBase t + b.addr)
  else false

/-- The held writes that no token holds any more are free to be applied, in arrival order (R325). -/
def settleHeld (d : Device) : Device :=
  let l := d.ring.ingress.map fun b => { b with stalled := b.stalled && d.leaseHolds b }
  { d with ring := { d.ring with ingress := l } }.w 0x1870 0x04 ((l.filter fun b : Bulk => b.stalled).map fun b : Bulk => b.data.length).sum

/-- The tokens of head `h` that `gone` names are retired (R324). -/
def retireLeases (h : Nat) (gone : Lease → Bool) (d : Device) : Device :=
  let x := d.headOf h
  let n := (x.leases.filter gone).length
  let rest := x.leases.filter fun l => !(gone l)
  let t := d.headTile h
  let d1 := (d.setHead h { x with leases := rest }).w (0x1850 + h) 0x05 rest.length
  let d2 := { d1 with mem := { d1.mem with
    leaseRetired := Cells.write 0 t (Cells.read 0 t d1.mem.leaseRetired + n) d1.mem.leaseRetired } }
  settleHeld (d2.addWrap 0x1870 0x02 8 n)

/-- Tokens are issued to head `h` (R324). -/
def issueLeases (h : Nat) (new : List Lease) (d : Device) : Device :=
  let x := d.headOf h
  let t := d.headTile h
  let d1 := (d.setHead h { x with leases := x.leases ++ new }).w (0x1850 + h) 0x05 (x.leases ++ new).length
  let d2 := { d1 with mem := { d1.mem with
    leaseIssued := Cells.write 0 t (Cells.read 0 t d1.mem.leaseIssued + new.length) d1.mem.leaseIssued } }
  d2.addWrap 0x1870 0x01 8 new.length

/-- Bytes that a layer of `height` lines of `width` pixels covers (R324). -/
def layerBytes (stride width height bytes : Nat) : Nat :=
  if height = 0 ∨ width = 0 ∨ bytes = 0 then 0 else stride * (height - 1) + width * bytes

/-- The tokens of a frame block of head `h` whose fields `v` reads (R324). -/
def frameLeases (d : Device) (h : Nat) (v : Nat → Nat) (now : Bool) : List Lease :=
  let a := d.act (0x1810 + h)
  let base := tileBase (d.headTile h)
  let r := v 0x04
  let first : Lease :=
    ⟨base + v 0x01, layerBytes (a 0x0E) (fld (a 0x0A) 0 2) (fld (a 0x0B) 0 2) (pixelBytes (a 0x0C)), now⟩
  if v 0x03 = 1 then
    [first, ⟨base + v 0x02, layerBytes (a 0x0F) (fld r 4 2) (fld r 6 2) (pixelBytes (a 0x0D)), now⟩]
  else [first]

/-! ## Frame block (R322, R323, R326) -/

def frameKeys (h : Nat) : List Nat := subKeys (0x1830 + h) 0x01 5
def frameStatusKey (h : Nat) : Nat := okey (0x1830 + h) 0x0E

/-- Head 1 is locked to head 0 (R326). -/
def headLocked (d : Device) : Bool := d.act 0x1811 0x11 == 1

/-- The checks of a frame commit on the pending copy (R315, R322). -/
def frameCheck (h : Nat) (d : Device) : Nat :=
  let v (sub : Nat) : Nat := d.pnd (0x1830 + h) sub
  let a := d.act (0x1810 + h)
  let r := v 0x04
  let t := d.headTile h
  let past (addr bytes : Nat) : Bool := bytes != 0 && decide (d.tileCapacity t < addr + bytes)
  verdict [
    (codeUnavailable, !(d.memReady t)),
    (codeOutOfRange, v 0x01 % 64 != 0 || v 0x02 % 64 != 0 || decide (1 < v 0x03) ||
      past (v 0x01) (layerBytes (a 0x0E) (fld (a 0x0A) 0 2) (fld (a 0x0B) 0 2) (pixelBytes (a 0x0C))) ||
      past (v 0x02) (layerBytes (a 0x0F) (fld r 4 2) (fld r 6 2) (pixelBytes (a 0x0D))) ||
      decide (fld (a 0x0A) 0 2 < fld r 0 2 + fld r 4 2) || decide (fld (a 0x0B) 0 2 < fld r 2 2 + fld r 6 2))]

/-- The boundary of head `h`'s frame block with the outcome `code` of the checks: the pending tokens are in force in place of those
that were, or go with a refused commit (R323, R324). The status of a locked head 1 is shown by head 0 (R326). -/
def frameOutcome (code h : Nat) (d : Device) : Device :=
  if d.pends (.frame h) then
    let key := frameStatusKey (if h = 1 ∧ d.headLocked then 0 else h)
    let d1 := commitBoundary (.frame h) (frameKeys h) key (fun _ => code) id d
    if code = 0 then
      let d2 := if (d1.headOf h).leases.any (fun l => !l.inForce) then retireLeases h (fun l => l.inForce) d1 else d1
      d2.setHead h { d2.headOf h with leases := (d2.headOf h).leases.map fun l => { l with inForce := true } }
    else retireLeases h (fun l => !l.inForce) d1
  else d

/-- The boundary of the frame blocks of some heads: a refusal of one refuses all (R326, R401). -/
def frameBoundaries (hs : List Nat) (d : Device) : Device :=
  let code := verdict ((hs.filter fun h => d.pends (.frame h)).map fun h => (frameCheck h d, frameCheck h d != 0))
  each (frameOutcome code) hs d

/-- A frame commit of head `h` that has passed its checks: it replaces a pending one, issues its tokens while the head is
enabled (R322, R324). -/
def frameAccept (h : Nat) (d : Device) : Device :=
  let d1 := retireLeases h (fun l => !l.inForce) ((stage (frameKeys h) d).addPend (.frame h))
  if d1.headEnabled h then issueLeases h (d1.frameLeases h (d1.pnd (0x1830 + h)) false) d1 else d1

/-- The heads whose frame blocks a frame commit of head `h` commits (R326). -/
def frameGroup (d : Device) (h : Nat) : List Nat := if h = 0 ∧ d.headLocked then [0, 1] else [h]

/-- The refusal code of a frame commit over its heads (R326, R401). -/
def groupCheck (d : Device) (hs : List Nat) : Nat :=
  let d1 := stage (hs.flatMap frameKeys) d
  verdict (hs.map fun k => (frameCheck k d1, frameCheck k d1 != 0))

/-- A refused frame commit discards the pending copies it replaced (R59) and their tokens (R324). -/
def frameRefuse (h : Nat) (d : Device) : Device :=
  retireLeases h (fun l => !l.inForce) ((unstage (frameKeys h) d).dropPend (.frame h))

/-- A write to head 1's frame commit while it is locked is a violation (R326). -/
def frameForbidden (d : Device) (h : Nat) : Bool := h == 1 && d.headLocked

/-! ## Enable, start and stop (R318 to R321, R326) -/

/-- The populated READY subchannels of the head's tile (R319). -/
def headSubs (d : Device) (h : Nat) : List Nat :=
  ((List.range 4).map fun i => 4 * d.headTile h + i).filter fun j => d.populated (j / 2) && d.chanState (j / 2) == 3

/-- Bursts per line of a layer (R319). -/
def lineBursts (width fmt : Nat) : Nat := if fmt = 0 then 0 else ceilDiv (width * pixelBytes fmt) 64 + 1

/-- The slots per table period that a head needs in all (R319). -/
def headSlots (d : Device) (h : Nat) : Nat :=
  let a := d.act (0x1810 + h)
  let l := lineBursts (fld (a 0x0A) 0 2) (a 0x0C) + lineBursts (fld (a 0x0A) 0 2) (a 0x0D)
  ceilDiv (2048 * 64 * l * 10 ^ 12) (timingTotal (a 0x0A) * d.headPeriod h * (d.o 0x1600 0x16 * 10 ^ 6))

/-- The slots on each subchannel. -/
def headShare (d : Device) (h : Nat) : Nat := ceilDiv (d.headSlots h) (d.headSubs h).length

/-- Why an enable is refused, 0 if it is not: the states first, then admission (R318; log entry 62). -/
def enableRefusal (d : Device) (h : Nat) : Nat :=
  if (d.headSubs h).isEmpty || decide (3 ≤ d.powerState (d.headTile h)) then 2
  else if h = 1 ∧ d.headLocked ∧ d.headEnabled 0 = false then 3
  else if !(d.demandFits ((d.headSubs h).map fun j => (j, d.headShare h))) then 1
  else 0

def setHeadState (h v : Nat) (d : Device) : Device := d.w (0x1810 + h) 0x21 v

/-- A write of 1 to the enable object (R318, R319, R324, R326). -/
def headEnableOp (h : Nat) (d : Device) : Device :=
  if d.headEnabled h then d
  else
    let c := d.enableRefusal h
    let d1 := d.w (0x1810 + h) 0x22 c
    if c ≠ 0 then setHeadState h headRefused d1
    else
      let share := d.headShare h
      let d2 := addGrant 5 (headOwner h) ((d.headSubs h).map fun j => (j, share)) (d1.w (0x1810 + h) 0x24 share)
      let d3 := d2.setHead h { HeadState.init with starting := true, matchFrom := (d2.headOf h).matchFrom }
      let d4 := issueLeases h (d3.frameLeases h (d3.act (0x1830 + h)) true) d3
      settleTiles (setHeadState h (if h = 1 ∧ d.headLocked then headLockWait else headAdmitting) d4)

/-- The channels that the head uses (R309 to R311). -/
def headChans (d : Device) (h : Nat) : List Nat :=
  let a := d.act (0x1810 + h)
  (List.range ((if a 0x01 = 1 then a 0x05 else a 0x04) + sidebands (a 0x06))).map fun g => 4 * a 0x02 + g

/-- A used channel drives, with its termination open (R309); `channelDrive` says at which level. -/
def drivePin (n : Nat) (d : Device) : Device := d.setPin n { Pin.init with drove := true, drive := .low }

/-- The head runs from the latch instant at `ps` on (R319, R326). -/
def startHead (ps h : Nat) (d : Device) : Device :=
  let d1 := setHeadState h headRunning (each drivePin (d.headChans h) d)
  d1.setHead h { d1.headOf h with starting := true, nextLatch := ps }

/-- A head that is admitted starts at the table-period boundary, at line VA (R319). -/
def headBoundary (h : Nat) (d : Device) : Device := if d.headState h = headAdmitting then startHead (1000 * d.cycle) h d else d

/-- One head stops at once (R321). -/
def stopOne (h : Nat) (d : Device) : Device :=
  if d.headEnabled h then
    let d1 := parkChans ((d.headQuads h).flatMap quadChans) (releaseGrants (headOwner h) (setHeadState h headDisabledState d))
    let d2 := retireLeases h (fun _ => true) (d1.w (0x1810 + h) 0x24 0)
    let x := d2.headOf h
    settleTiles (d2.setHead h { x with fetched := 0, lines := [], starting := false })
  else setHeadState h headDisabledState d

/-- A head is disabled, a locked head 1 together with head 0 (R321). A frame commit that waits is then applied as to a disabled head
(R322); that of a locked pair waits for head 0, whose commit it is (R326). -/
def stopHead (h : Nat) (d : Device) : Device :=
  let d1 := if h = 0 ∧ d.headLocked ∧ d.headEnabled 1 then stopOne 1 (stopOne 0 d) else stopOne h d
  if h = 1 ∧ d.headLocked ∧ d.headEnabled 0 then d1 else frameBoundaries (d.frameGroup h) d1

/-- Every enabled head stops. -/
def stopHeads (d : Device) : Device := each (fun h e => if e.headEnabled h then stopHead h e else e) [0, 1] d

/-! ## Lines (R313 to R316, R320, R327) -/

/-- A line's length in ps. -/
def linePs (d : Device) (h : Nat) : Nat := timingTotal (d.act (0x1810 + h) 0x0A) * d.headPeriod h
def activeHeight (d : Device) (h : Nat) : Nat := fld (d.act (0x1810 + h) 0x0B) 0 2
def totalLines (d : Device) (h : Nat) : Nat := timingTotal (d.act (0x1810 + h) 0x0B)

/-- The first pixel clock of line `y` after the last latch instant (R313, R314). -/
def lineStart (d : Device) (h y : Nat) : Nat :=
  (d.headOf h).lastLatch + (y + d.totalLines h - d.activeHeight h) % max (d.totalLines h) 1 * d.linePs h

/-- The line in progress (0x1810+h.25). -/
def currentLine (d : Device) (h : Nat) : Nat :=
  if d.headState h = headRunning ∧ (d.headOf h).starting = false then
    (d.activeHeight h + (1000 * d.cycle - (d.headOf h).lastLatch) / max (d.linePs h) 1) % max (d.totalLines h) 1
  else 0

/-- An instant in ps lies in the present cycle or before it. -/
def reached (d : Device) (ps : Nat) : Bool := decide (ps / 1000 ≤ d.cycle)

/-- Line `y` of the overlay shows in the frame (R315, R316). -/
def overlayLine (d : Device) (h y : Nat) : Bool :=
  let r := d.act (0x1830 + h) 0x04
  d.act (0x1830 + h) 0x03 == 1 && d.act (0x1810 + h) 0x0D != 0 && fld r 4 2 != 0 && decide (fld r 2 2 ≤ y) &&
    decide (y < fld r 2 2 + fld r 6 2)

/-- The frame shows the overlay (R327 flag 3). -/
def overlayShown (d : Device) (h : Nat) : Bool := (List.range (d.activeHeight h)).any (d.overlayLine h)

/-- Where line `y` of the base layer begins, and where the overlay's line over it does (R315). -/
def baseLineAt (d : Device) (h y : Nat) : Nat :=
  tileBase (d.headTile h) + d.act (0x1830 + h) 0x01 + y * d.act (0x1810 + h) 0x0E
def overlayLineAt (d : Device) (h y : Nat) : Nat :=
  tileBase (d.headTile h) + d.act (0x1830 + h) 0x02 + (y - fld (d.act (0x1830 + h) 0x04) 2 2) * d.act (0x1810 + h) 0x0F

/-- The output words of line `y` (R315 to R317). Real-time reads take the device's contents (R259). -/
def lineWords (d : Device) (h y : Nat) : List Nat :=
  let a := d.act (0x1810 + h)
  let width := fld (a 0x0A) 0 2
  let base := pixelsOf (a 0x0C) width (d.sdramRead (d.baseLineAt h y) (width * pixelBytes (a 0x0C)))
  let r := d.act (0x1830 + h) 0x04
  let line :=
    if d.overlayLine h y then
      blendLine (a 0x0D) (d.act (0x1830 + h) 0x05) (fld r 0 2) base
        (pixelsOf (a 0x0D) (fld r 4 2) (d.sdramRead (d.overlayLineAt h y) (fld r 4 2 * pixelBytes (a 0x0D))))
    else base
  line.map (outputWord (a 0x04))

/-- A fetched line held poisoned data. -/
def linePoisoned (d : Device) (h y : Nat) : Bool :=
  let a := d.act (0x1810 + h)
  d.sdramPoisoned (d.baseLineAt h y) (fld (a 0x0A) 0 2 * pixelBytes (a 0x0C)) ||
  (d.overlayLine h y &&
    d.sdramPoisoned (d.overlayLineAt h y) (fld (d.act (0x1830 + h) 0x04) 4 2 * pixelBytes (a 0x0D)))

/-- The bytes that a line gives the CRC (R327). -/
def crcBytes (w : Nat) (words : List Nat) : List Byte := words.flatMap (leBytes (ceilDiv w 8))

/-- The head runs, past its first latch, a frame that is not aborted and has lines to fetch. -/
def fetching (d : Device) (h : Nat) : Bool :=
  let x := d.headOf h
  d.headState h == headRunning && !x.starting && !x.aborted && decide (x.fetched < d.activeHeight h)

/-- The frame of head `h` is aborted (R328). -/
def abortFrame (h : Nat) (d : Device) : Device := d.setHead h { d.headOf h with aborted := true }

/-- An underrun: counted and raised at the head it came in, and the frame of a locked pair is aborted in both (R326,
R328). -/
def headUnderrun (h : Nat) (d : Device) : Device :=
  let d1 := ((abortFrame h d).addSat (0x1850 + h) 0x04 4 1).raise (51 + 4 * h)
  if d.headLocked ∧ d.headState (1 - h) = headRunning then abortFrame (1 - h) d1 else d1

/-- A pixel is due and its line is not in the line buffer (R328). -/
def lineMissing (d : Device) (h : Nat) : Bool := d.fetching h && d.reached (d.lineStart h (d.headOf h).fetched)

def headUnderrunOp (h : Nat) (d : Device) : Device := if d.lineMissing h then headUnderrun h d else d

/-- The next line of each layer is fetched (R320): line 0 during blanking, line y + 1 while line y plays. A line whose first pixel
is due by then is an underrun (R328). -/
def lineFetchOp (h : Nat) (d : Device) : Device :=
  let x := d.headOf h
  let y := x.fetched
  if d.lineMissing h then headUnderrun h d
  else if d.fetching h ∧ (y = 0 ∨ d.reached (d.lineStart h (y - 1))) then
    let words := d.lineWords h y
    d.setHead h { x with
      fetched := y + 1, lines := (x.lines.drop (x.lines.length - 1)) ++ [(y, words)],
      crc := crc32Run x.crc (crcBytes (d.act (0x1810 + h) 0x04) words), poisoned := x.poisoned || d.linePoisoned h y }
  else d

/-- The line match of R329, once a frame; a new value counts from the next line on. -/
def lineMatchOp (h : Nat) (d : Device) : Device :=
  let x := d.headOf h
  let y := d.o (0x1810 + h) 0x23
  let at_ := d.lineStart h y
  if d.headState h = headRunning ∧ x.starting = false ∧ x.matched = false ∧ y < d.totalLines h ∧ d.reached at_ ∧
      x.matchFrom ≤ at_ / 1000 then
    (d.setHead h { x with matched := true }).raise (49 + 4 * h)
  else d

/-! ## The latch instant (R314, R323, R324, R327, R329) -/

/-- What the record of the frame just shown will hold (R327). -/
def shownFrame (d : Device) (h : Nat) : Shown :=
  let x := d.headOf h
  let f (k : Nat) (b : Bool) : Nat := if b then 2 ^ k else 0
  { number := (d.o (0x1850 + h) 0x01 + 1) % 2 ^ 32, crc := crc32Final x.crc, aborted := x.aborted,
    flags := f 1 x.aborted + f 2 x.poisoned + f 3 (!x.starting && d.overlayShown h) + f 4 (h == 1 && d.headLocked),
    time := d.ringNs, base := d.act (0x1830 + h) 0x01, sent := !x.starting }

/-- A locked head 1 that waits starts at head 0's latch instant (R326). -/
def startLocked (h ps : Nat) (d : Device) : Device :=
  if h = 0 ∧ d.headState 1 = headLockWait then startHead ps 1 d else d

/-- A frame's lines that were not fetched by its latch instant were an underrun (R328). -/
def latchMissed (h : Nat) (d : Device) : Device := if d.fetching h then headUnderrun h d else d

/-- One head at its latch instant (R314): the frame just shown goes into its record, and the next begins. -/
def latchOne (h : Nat) (d : Device) : Device :=
  let ps := (d.headOf h).nextLatch
  let shown := d.shownFrame h
  let d1 := d.addWrap (0x1850 + h) 0x01 8 1
  let x := d1.headOf h
  let d2 := d1.setHead h { x with
    fetched := 0, lines := [], crc := 0xFFFFFFFF, aborted := false, poisoned := false, starting := false, lastLatch := ps,
    nextLatch := ps + d.totalLines h * d.linePs h, matched := false, shown := some shown }
  d2.raise (48 + 4 * h)

/-- The head's latch instant has come. -/
def latchReached (d : Device) (h : Nat) : Bool := d.headState h == headRunning && d.reached (d.headOf h).nextLatch

/-- The latch instant of head `h` (R314), and of the other head of a locked pair, which falls in the same cycle (R326): what
each has missed, the records of the frames just shown, then the pending addresses of both. -/
def headLatchOp (h : Nat) (d : Device) : Device :=
  if d.latchReached h then
    let d0 := startLocked h (d.headOf h).nextLatch d
    let hs := if d0.headLocked ∧ d0.latchReached (1 - h) = true then [h, 1 - h] else [h]
    frameBoundaries (if d0.headLocked then [0, 1] else hs) (each latchOne hs (each latchMissed hs d0))
  else d

/-- A write of 1 to the frame commit of head `h`. A latch instant that has come by this cycle does not take the commit in (R323). -/
def frameCommitOp (h : Nat) (d0 : Device) : Device :=
  let d := each headLatchOp (d0.frameGroup h) d0
  let hs := d.frameGroup h
  let c := d.groupCheck hs
  if c = 0 then
    let e := each frameAccept hs d
    if hs.any d.headEnabled then e.put (frameStatusKey h) codePending else frameBoundaries hs e
  else (each frameRefuse hs d).put (frameStatusKey h) c

/-! ## The pins of a head (R309 to R311, R313, R327, R328) -/

/-- The first pixel clock that the head's counts begin at. -/
def headOrigin (d : Device) (h : Nat) : Nat := if (d.headOf h).starting then (d.headOf h).nextLatch else (d.headOf h).lastLatch

/-- The line and the pixel in it of pixel clock `n` after the last latch instant (R313, R314). -/
def pixelAt (d : Device) (h n : Nat) : Nat × Nat :=
  let ht := timingTotal (d.act (0x1810 + h) 0x0A)
  ((d.activeHeight h + n / ht) % d.totalLines h, n % ht)

/-- The pixel at (line, place) is active and the frame is not aborted (R313, R328). -/
def pixelActive (d : Device) (h : Nat) (x : Nat × Nat) : Bool :=
  decide (x.1 < (d.headOf h).fetched) && decide (x.2 < fld (d.act (0x1810 + h) 0x0A) 0 2) && !((d.headOf h).aborted)

/-- The data word of a pixel: the line buffer's, or the blanking word (R313, R328). -/
def pixelWord (d : Device) (h : Nat) (x : Nat × Nat) : Nat :=
  let line := ((d.headOf h).lines.reverse.find? fun p => p.1 == x.1).map Prod.snd
  match d.pixelActive h x, line with
  | true, some l => l.getD x.2 0
  | _, _ => d.act (0x1810 + h) 0x10 % 2 ^ d.act (0x1810 + h) 0x04

/-- HSYNC, VSYNC or DE (sideband 1, 2 or 3) of a pixel, with its polarity (R313). -/
def syncLevel (d : Device) (h k : Nat) (x : Nat × Nat) : Bool :=
  let horiz := d.act (0x1810 + h) 0x0A
  let vert := d.act (0x1810 + h) 0x0B
  let within (r i : Nat) : Bool := decide (fld r 0 2 + fld r 2 2 ≤ i) && decide (i < fld r 0 2 + fld r 2 2 + fld r 4 2)
  let active := if k = 1 then within horiz x.2 else if k = 2 then within vert x.1 else d.pixelActive h x
  active != bit (d.act (0x1810 + h) 0x07) k

/-- The sideband signals that are enabled, in their order: 0 pixel clock, 1 HSYNC, 2 VSYNC, 3 DE (R310). -/
def sideOrder (m : Nat) : List Nat := (List.range 4).filter fun k => bit m k

/-- The level of group channel `g` of a running head at `ps`: VIH for true (R309 to R311). In PARALLEL mode data, syncs and DE
change at the midpoints of the periods. -/
def headLevel (d : Device) (h g ps : Nat) : Bool :=
  let a := d.act (0x1810 + h)
  let p := d.headPeriod h
  let t := ps - d.headOrigin h
  let n := t / p
  let r := t % p
  let serial := a 0x01 == 1
  let lanes := if serial then a 0x05 else a 0x04
  let frame := d.totalLines h * timingTotal (a 0x0A)
  let pixel := d.pixelAt h (n + frame - if !serial && decide (2 * r < p) then 1 else 0)
  if g < lanes then
    let k := if serial then r / a 0x09 * lanes + g else g
    bit (d.pixelWord h pixel) k
  else
    let side := (sideOrder (a 0x06)).getD (g - lanes) 0
    if side = 0 then
      (if serial then decide (r / a 0x09 < (a 0x04 / lanes + 1) / 2) else decide (2 * r < p))
    else d.syncLevel h side pixel

/-- What drives channel `n` at `ps`: the head that uses it, else what its vectors have put on it (R13, R309). -/
def channelDrive (d : Device) (n ps : Nat) : Drive :=
  match (List.range 2).find? fun h => d.headState h == headRunning && (d.headChans h).contains n with
  | some h => if d.headLevel h (n - 4 * d.act (0x1810 + h) 0x02) ps then .high else .low
  | none => ((d.pinOf n).settled (4 * ps)).drive

/-- The level in nV that the driver holds at `ps`, where it holds one: VIH or VIL as the level outputs stand (R63, R74, R309). -/
def drivenLevel (d : Device) (n ps : Nat) : Option Int :=
  match d.channelDrive n ps with
  | .high => some (d.outputNow (n / 4) (6 * (n % 4)) ps)
  | .low => some (d.outputNow (n / 4) (6 * (n % 4) + 1) ps)
  | _ => none

/-- The instant at which the pixel `x` of line `y` of the frame just shown was sampled for bit `k` (R327): the rising clock edge at
its centre, or the middle of the bit's UI. -/
def sampleAt (d : Device) (h y x k : Nat) : Nat :=
  let a := d.act (0x1810 + h)
  let p := d.headPeriod h
  let start := (d.headOf h).lastLatch - (d.activeHeight h - y) * d.linePs h + x * p
  if a 0x01 = 1 then start + k / a 0x05 * a 0x09 + a 0x09 / 2 else start + p

/-- The word read back for a pixel, from the voltage in nV at each data channel's VOH comparator, by bit (R309, R327). -/
def readBackWord (d : Device) (h y x : Nat) (volts : List Int) : Nat :=
  let a := d.act (0x1810 + h)
  (List.range (a 0x04)).foldl (fun w k =>
    let n := 4 * a 0x02 + (if a 0x01 = 1 then k % a 0x05 else k)
    let voh := d.outputNow (n / 4) (6 * (n % 4) + 3) (d.sampleAt h y x k)
    if belowAt (d.onTrims n 1) (volts.getD k 0) voh (Config.comparator d.freeCtr (2 * n + 1)) then w else w + 2 ^ k) 0

/-- The pin CRC of the frame just shown (R327): `volts` gives the samples of its active pixels in raster order. -/
def pinCrc (d : Device) (h : Nat) (volts : List (List Int)) : Nat :=
  let width := fld (d.act (0x1810 + h) 0x0A) 0 2
  let words := (List.range (width * d.activeHeight h)).map fun i =>
    d.readBackWord h (i / width) (i % width) (volts.getD i [])
  crc32Final (crc32Run 0xFFFFFFFF (crcBytes (d.act (0x1810 + h) 0x04) words))

/-- The frame record is written and frame done is raised (R327). Where the head had sent no word, both CRCs are over none. -/
def frameDoneOp (h : Nat) (volts : List (List Int)) (d0 : Device) : Device :=
  let x := d0.headOf h
  match x.shown with
  | none => d0
  | some f =>
    let d := if f.aborted || !f.sent then d0 else d0.fresh
    let src := if f.aborted then 0 else f.crc
    let pin := if f.aborted then 0 else if f.sent then d0.pinCrc h volts else crc32Final 0xFFFFFFFF
    let same := src == pin
    let record := f.number + src * 2 ^ 32 + pin * 2 ^ 64 + (f.flags + if same then 1 else 0) * 2 ^ 96 + h * 2 ^ 104 +
      f.time % 2 ^ 64 * 2 ^ 128 + f.base % 2 ^ 64 * 2 ^ 192
    let d1 := (d.setHead h { x with shown := none }).w (0x1850 + h) 0x02 record
    (if same then d1 else d1.addSat (0x1850 + h) 0x03 4 1).raise (50 + 4 * h)

end Device

open Device

/-- A write of the head setup commit (R308). -/
def execHeadSetupCommit (p : Port) (h : Head) (v : Byte) (s : State) : Host.Outcome State Fault Refusal :=
  nextDev s (s.dev.hostWrite p (0x1810 + h.val) 0x1F v.toNat false (headSetupOp h.val))

/-- A write of 1 to the enable object (R318). -/
def execHeadEnable (p : Port) (h : Head) (s : State) : Host.Outcome State Fault Refusal :=
  nextDev s (s.dev.hostWrite p (0x1810 + h.val) 0x20 1 false (headEnableOp h.val))

/-- A write of 2 to the enable object (R321). -/
def execHeadDisable (p : Port) (h : Head) (s : State) : Host.Outcome State Fault Refusal :=
  nextDev s (s.dev.hostWrite p (0x1810 + h.val) 0x20 2 false (stopHead h.val))

/-- A write of the frame commit (R322, R323). -/
def execFrameCommit (p : Port) (h : Head) (v : Byte) (s : State) : Host.Outcome State Fault Refusal :=
  nextDev s (s.dev.hostWrite p (0x1830 + h.val) 0x0F v.toNat (s.dev.frameForbidden h.val) (frameCommitOp h.val))

/-- A latch instant (R314). -/
def execLatchInstant (h : Head) (s : State) : Host.Outcome State Fault Refusal := nextDev s (headLatchOp h.val s.dev)

/-- A line fetch (R320). -/
def execLineFetch (h : Head) (s : State) : Host.Outcome State Fault Refusal := nextDev s (lineFetchOp h.val s.dev)

/-- A line match (R329). -/
def execLineMatch (h : Head) (s : State) : Host.Outcome State Fault Refusal := nextDev s (lineMatchOp h.val s.dev)

/-- An underrun (R328). -/
def execPixelUnderrun (h : Head) (s : State) : Host.Outcome State Fault Refusal := nextDev s (headUnderrunOp h.val s.dev)

/-- The frame record (R327). -/
def execFrameDone (h : Head) (readBack : List (List Int)) (s : State) : Host.Outcome State Fault Refusal :=
  nextDev s (frameDoneOp h.val readBack s.dev)

end Sys2Proof.Machine
end

