-- ==== Sys2Proof/Machine/Clocks.lean ====
section
/-!
DEFINITION. REFCLK: its loss, its return, and the relock of a tile's PLLs (R26).
-/
namespace Sys2Proof.Machine
namespace Device

/-- The flow of a site that REFCLK loss finds active ends with CLOCK-LOSS: a running step at once, a held one is reported,
and the records wait for the relock (R26, R188). -/
def endFlowsWith (code halt s : Nat) (d : Device) : Device :=
  let f := d.flowOf s
  let closed (e : Device) : Device :=
    (setSiteState e s siteWaiting).setFlow s { e.flowOf s with ending := some code }
  match f.phase with
  | .idle => d
  | .endCredit => d
  | .complete => closed d
  | .credit => closed d
  | .boundary => closed (reportHeld s code d)
  | .admission => closed (reportHeld s code d)
  | .admitted => closed (reportHeld s code (releaseGrants s d))
  | .running =>
    if (d.seqOf s).phase = .off then closed (finishStep s code d)
    else closed (cutPattern s halt (d.setFlow s { f with result := code }))

/-- Why the present boot stage waits (R330): stage 3 for REFCLK, stage 5 for a link. -/
def settleWait (d : Device) : Device :=
  let st := d.o 0x1200 0x01
  d.w 0x1200 0x0A (if st = 3 ∧ d.refclk ≠ .present then 1 else if st = 5 ∧ d.joined = false then 2 else 0)

/-- No REFCLK edge for 100 ns (R26): drivers at DZ, flows end, heads stop (R321), measurements and calibrations abort
(R116, R366), and TIME-SYNC-LOSS is raised. -/
def refclkLossOp (d : Device) : Device :=
  match d.refclk with
  | .absent => d
  | .lost => d
  | _ =>
    let d1 := each (endFlowsWith resClockLoss haltClock) (List.range 128) { d with refclk := .lost, relock := 0xFF }
    let d2 := each abortTmu (List.range 512) (each abortCal (List.range 8) (stopHeads d1))
    settleWait (settleTiles ((parkChans (List.range 512) d2).raise 24))

/-- REFCLK has toggled for 10 µs: the relock of the PLLs begins (R26); at a start without REFCLK the stage that waited for it goes
on (R330). -/
def refclkReturnOp (d : Device) : Device :=
  match d.refclk with
  | .lost => { d with refclk := .returning }
  | .absent => if d.o 0x1200 0x01 = 1 then d else nextFrame (settleWait { d with refclk := .present })
  | _ => d

/-- A flow that waited for the relock of its host tile writes its records (R26, R188). -/
def relockSite (t s : Nat) (d : Device) : Device :=
  if d.hostCluster s / 4 = t ∧ (d.flowOf s).ending.isSome then recordWriteOp s (stepCompleteOp s d) else d

/-- A tile's PLLs have relocked (R26); with the last of them the clock is present again. -/
def relockOp (t : Nat) (d : Device) : Device :=
  if d.refclk = .returning ∧ bit d.relock t then
    let left := setBit d.relock t false
    let d1 := { d with relock := left, refclk := if left = 0 then .present else .returning }
    nextFrame (settleWait (settleTiles (each (relockSite t) (List.range 128) d1)))
  else d

end Device

open Device

/-- REFCLK_LOSS (R26). -/
def execRefclkLoss (s : State) : Host.Outcome State Fault Refusal := nextDev s (refclkLossOp s.dev)

/-- REFCLK_RETURN (R26). -/
def execRefclkReturn (s : State) : Host.Outcome State Fault Refusal := nextDev s (refclkReturnOp s.dev)

/-- PLL_RELOCK (R26). -/
def execPllRelock (t : Tile) (s : State) : Host.Outcome State Fault Refusal := nextDev s (relockOp t.val s.dev)

end Sys2Proof.Machine
end

