-- ==== Sys2Proof/Machine/Power.lean ====
section
/-!
DEFINITION. Power states and thermal management (chapter 15) and the supply monitors (R389, R399): moves between power
states (R368, R371 to R373), sensors, levels and throttling (R374 to R381), prediction, orderly stop and hard trip (R382 to
R384), and the release to READY that a shutdown level withholds (R330, R379).
-/
namespace Sys2Proof.Machine
namespace Device

/-! ## Power states (R91, R116, R368 to R373) -/

/-- The channels of a tile lose their bias (R91): driver off, levels at 0 V, the state before is forgotten (R127). -/
def chanSleep (n : Nat) (d : Device) : Device := d.parkChan n
def quadSleep (q : Nat) (d : Device) : Device := d.setDac q { d.dacOf q with loads := [] }

/-- On exit a channel's enabled monitor starts from INIT (R88, R91). A self-check that ran when the tile entered SLEEP ends here
without a result, and its object stays RUNNING (DESIGN CHOICE, log entry 14). -/
def chanAwake (n : Nat) (d : Device) : Device :=
  if d.act (chanIx n) 0x09 = 0 then d
  else
    let m := Monitor.started (d.act (chanIx n) 0x0E)
    (d.setChanMon n m).w (chanIx n) 0x14 m.code

/-- A channel of the tile enters self-refresh with DORMANT (R368). -/
def selfRefresh (k : Nat) (d : Device) : Device := if d.chanState k = 3 then d.w (0x1610 + k) 0x03 5 else d

def tileQuads (t : Nat) : List Nat := (List.range 16).map fun i => 16 * t + i

/-- What entering a state at or below `new` from `old` stops, and what leaving one restarts (R91, R116, R321, R368). -/
def powerEffects (t old new : Nat) (d : Device) : Device :=
  let d1 := if old < 3 ∧ 3 ≤ new then
      each (fun h e => if e.headEnabled h && e.headTile h == t then stopHead h e else e) [0, 1]
        (each abortTmu (tileChans t) d)
    else d
  let d2 := if old < 4 ∧ 4 ≤ new then each quadSleep (tileQuads t) (each chanSleep (tileChans t) d1) else d1
  let d3 := if 4 ≤ old ∧ new < 4 then each loadDacs (tileQuads t) (each chanAwake (tileChans t) d2) else d2
  if new = 5 then each selfRefresh [2 * t, 2 * t + 1] d3 else d3

/-- A short retrain of the tile's memory runs: the DORMANT exit is not complete (R267, R368). -/
def retraining (d : Device) (t : Nat) : Bool := bit d.mem.trainShort (2 * t) || bit d.mem.trainShort (2 * t + 1)

/-- A move of tile `t` completes (R371): its effects, TILE-POWER, the count, and the starts that waited (R373). In SHUTDOWN
the tiles are gated off. A tile on which a grant is held does not enter DORMANT (R255). -/
def powerChangeOp (t : Nat) (d : Device) : Device :=
  let m := Cells.read 0 t d.power.moving
  if m = 0 ∨ d.o 0x1300 0x12 = 2 ∨ (5 = d.powerState t ∧ d.retraining t = true) ∨ (m = 6 ∧ d.tileGranted t = true) then d
  else
    let new := m - 1
    let i := 0x1320 + t
    let d1 := (powerEffects t (d.powerState t) new d).w i 0x02 new
    let d2 := { d1 with power := { d1.power with moving := Cells.write 0 t 0 d1.power.moving } }
    let d3 := ((d2.w i 0x08 0).addSat i 0x06 4 1).raise (8 + t)
    let d4 := if new = 0 then d3.w i 0x07 ((d.cycle - Cells.read 0 t d.power.moveSince) % 2 ^ 32) else d3
    let d5 := settleTile t (each (wakeStart t) (List.range 128) d4)
    if new = 5 ∧ d5.accessWaits t then touchTile t d5 else d5

/-- A latency tolerance takes effect at once (R369, R371). -/
def toleranceOp (t v : Nat) (d : Device) : Device := settleTile t (d.w (0x1320 + t) 0x01 v)

/-- 10 ms without a best-effort access, of which none waits (R372). -/
def reentryOp (t : Nat) (d : Device) : Device :=
  let last := Cells.read 0 t d.power.lastAccess
  if last ≠ 0 ∧ last - 1 + 10000000 ≤ d.cycle ∧ d.accessWaits t = false then
    settleTile t { d with power := { d.power with lastAccess := Cells.write 0 t 0 d.power.lastAccess } }
  else d

/-! ## Release to READY (R330, R379) -/

/-- Training starts by itself in mode AUTO (R265). -/
def autoTraining (d : Device) : Device :=
  if d.o 0x1600 0x02 = 0 ∧ d.trainingRuns = false ∧ d.anyPopulated = true then
    startTraining ((List.range 16).filter fun k => d.populated k && d.chanState k != 3) d
  else d

/-- Stage 5 has ended and nothing withholds the release: no SAFE-HOLD, no shutdown level (R342, R379). In SAFE-HOLD the boot
state reads so. -/
def settleRelease (d : Device) : Device :=
  let st := d.o 0x1200 0x01
  if d.joined = false ∨ d.boot.released = 1 ∨ (st ≠ 5 ∧ st ≠ 7) then d
  else if d.boot.safeHold then d.w 0x1200 0x01 7
  else if ((List.range 8).any fun t => bit (d.o (0x1310 + t) 0x0B) 2) = true then d.w 0x1200 0x01 5
  else
    let d1 := ((d.w 0x1200 0x01 6).w 0x1200 0x02 100).w 0x1200 0x06 (d.cycle / 1000 % 2 ^ 32)
    let d2 := { d1 with boot := { d1.boot with released := 1 } }
    settleTiles (autoTraining (each (calDue 2 3) ((List.range 8).filter fun t => d.o (0x1410 + t) 0x04 == 0) (d2.raise 17)))

/-- A part that was READY when it entered SAFE-HOLD reads READY after it. -/
def leaveHold (d : Device) : Device := if d.boot.released = 1 ∧ d.o 0x1200 0x01 = 7 then d.w 0x1200 0x01 6 else d

/-- An assignment takes effect; one that ends SAFE-HOLD lets a withheld release to READY follow (R344). -/
def takePrimacy (h : Nat) (d : Device) : Device :=
  let d1 := assignPrimacy h d
  if d.boot.safeHold = true ∧ d1.boot.safeHold = false then settleRelease (leaveHold d1) else d1

/-- An accepted change of primacy takes effect at the table-period boundary (R344). -/
def primacyBoundary (d : Device) : Device := match d.boot.pendingPrimacy with
  | some h => takePrimacy h d
  | none => d

/-- The table-period boundary: grants and releases, the heads and acquisitions that waited for them, a pending change of
primacy (R254, R319, R344). -/
def periodBoundary (d : Device) : Device :=
  settleTiles (each acqBoundary (List.range 32) (each headBoundary [0, 1] (grantBoundary (primacyBoundary d))))

/-! ## Stops for heat (R383, R384) -/

/-- Every quad that plays nothing. -/
def idleQuads (d : Device) : List Nat :=
  (List.range 128).filter fun q => match d.siteOf q with
    | some s => (d.seqOf s).phase == .off
    | none => true

/-- A flow in an orderly stop (R383): its pattern ends with halt reason THERMAL, its step with THERMAL, and so its flow. -/
def thermalSite (s : Nat) (d : Device) : Device :=
  let f := d.flowOf s
  let closed (e : Device) : Device := e.setFlow s { e.flowOf s with ending := some resThermal }
  match f.phase with
  | .idle => d
  | .endCredit => d
  | .complete => closed d
  | .credit => closed d
  | .boundary => closed (reportHeld s resThermal d)
  | .admission => closed (reportHeld s resThermal d)
  | .admitted => closed (reportHeld s resThermal (releaseGrants s d))
  | .running =>
    match (d.seqOf s).phase with
    | .off => closed (finishStep s resThermal d)
    | .ending => closed d
    | _ => closed (stopPattern s haltThermal (d.setFlow s { f with result := resThermal }))

/-- An orderly stop begins (R383). -/
def orderlyStop (d : Device) : Device :=
  let d1 := (((d.raise 2).w 0x1300 0x12 1).w 0x1300 0x13 1).addSat 0x1300 0x16 4 1
  let d2 := each thermalSite (List.range 128) { d1 with sites := { d1.sites with starts := [], woken := [] } }
  let d3 := each abortTmu (List.range 512) (each abortCal (List.range 8) (stopHeads (each disarmAcq (List.range 32) d2)))
  settleTiles (settleStop (parkChans (d3.idleQuads.flatMap quadChans) d3))

/-- Every tile is gated off and the SDRAM devices are reset: the contents are lost (R383, R384). -/
def gateOff (d : Device) : Device := settleTiles ((settleTraining (each untrain (List.range 16) d)).w 0x1300 0x12 2)

/-- The last step of an orderly stop (R383): every channel has parked and every DPS output has disconnected. -/
def shutdownDoneOp (d : Device) : Device :=
  if d.o 0x1300 0x12 = 1 ∧ d.dps.rank = none ∧ ((List.range 64).all fun k => !(d.dpsConnected k)) = true ∧
      ((List.range 128).all fun s => (d.seqOf s).phase == .off) = true then gateOff d
  else d

/-- A channel in a hard trip: driver off, termination open, PPMU off (R384). -/
def tripChan (n : Nat) (d : Device) : Device :=
  (d.setPin n { Pin.init with drive := .isolated }).wact (chanIx n) 0x02 0

/-- What a hard trip leaves of a site: its pattern is cut, with no log record, and its flow ends with no record (R384). -/
def tripSite (s : Nat) (d : Device) : Device :=
  let f := d.flowOf s
  let z := d.seqOf s
  let d1 := (d.setSeq s { z with logWait := [], hold := .none }).setFlow s { f with logEntry := [] }
  let d2 := releaseGrants s (cutPattern s haltThermal d1)
  if f.phase = .idle then d2
  else (setSiteState (d2.w (siteIx s) 0x32 resThermal) s siteIdle).setFlow s
    { d2.flowOf s with phase := .idle, ending := none, abortFlow := false, aborting := false }

/-- A TMU channel whose tile gates off: its batch ends without results. -/
def tripTmu (n : Nat) (d : Device) : Device :=
  if d.tmuBusy n then
    (setTmuState n tmuDone d).setTmu n { d.tmuOf n with
      left := 0, converting := [], start := none, first := none, last := none, edges := 0, fast := false, isReady := false }
  else d

/-- An acquisition unit whose tile gates off: its arm ends with nothing written. -/
def tripAcq (c : Nat) (d : Device) : Device := if d.acqArmed c then endArm c acqIdle d else d

/-- No event was raised between `before` and `d`. -/
def eventsOf (before d : Device) : Device :=
  { d with event := { d.event with raised := before.event.raised, snap := before.event.snap } }

/-- A hard trip (R384): every DPS output and every driver is off, every tile gated off; what runs ends with no record written and no
event raised, and a running calibration is aborted (R366). How what runs reads afterwards is a DESIGN CHOICE (log entry 64). -/
def hardTrip (cause : Nat) (d : Device) : Device :=
  if d.o 0x1300 0x12 = 2 then d
  else
    let d1 := if d.o 0x1300 0x12 = 0 then d.addSat 0x1300 0x16 4 1 else d
    let d2 := (d1.w 0x1300 0x12 2).w 0x1300 0x13 cause
    let d3 := each tripTmu (List.range 512) (each tripAcq (List.range 32) (each abortCal (List.range 8) (stopHeads d2)))
    let d4 := each tripSite (List.range 128) { d3 with sites := { d3.sites with starts := [], woken := [] } }
    eventsOf d (gateOff (each tripChan (List.range 512)
      (disconnectAll { d4 with power := { d4.power with thermtrip := true } })))

/-! ## Sensors (R374 to R377) -/

def sensorKey (t k : Nat) : Nat := okey (0x1310 + t) (1 + k)
def reading (d : Device) (t k : Nat) : Int := sx 16 (d.get (sensorKey t k))
def sensorIncluded (d : Device) (t k : Nat) : Bool := !(bit (d.act 0x1300 0x07) (8 * t + k))
def sensorFault (d : Device) (t k : Nat) : Bool := bit (d.o (0x1310 + t) 0x0C) k

/-- Sensor `k` of tile `t` enters FAULT with a cause (R375); an excluded sensor only reports the code (R376). -/
def enterFault (t k cause : Nat) (d : Device) : Device :=
  let d1 := d.put (sensorKey t k) 2400
  if d.sensorIncluded t k && !(d.sensorFault t k) then
    ((d1.wbit (0x1310 + t) 0x0C k true).w (0x1310 + t) 0x0D cause).raise 3
  else d1

/-- The conversions in a row, the last with them, that gave identical codes in both phases. -/
def sameCount (d : Device) (t k : Nat) : Nat := Cells.read 0 (8 * t + k) d.power.same
def setSame (t k n : Nat) (d : Device) : Device :=
  { d with power := { d.power with same := Cells.write 0 (8 * t + k) n d.power.same } }

/-- One conversion (R374, R375): the 64th in a row with identical phases is STUCK; a sensor in FAULT stays so. -/
def convertSensor (t k : Nat) (c : Conversion) (d : Device) : Device :=
  let n := if c.same then min 64 (d.sameCount t k + 1) else 0
  let e := setSame t k n d
  if d.sensorFault t k then d
  else if c.reading < -640 ∨ 2240 < c.reading then enterFault t k 1 e
  else if n = 64 then enterFault t k 2 e
  else e.put (sensorKey t k) (ux 16 c.reading)

def convertSensors (t : Nat) : Nat → List Conversion → Device → Device
  | _, [], d => d
  | k, c :: cs, d => convertSensors t (k + 1) cs (convertSensor t k c d)

/-- Of (number, value) pairs the first with the largest value. -/
def largest : List (Nat × Int) → Option (Nat × Int)
  | [] => none
  | p :: l => match largest l with
    | none => some p
    | some q => if q.2 ≤ p.2 then some p else some q

/-- The tile's hottest included sensor, and the chip's hottest tile (R377). -/
def settleHottest (t : Nat) (d : Device) : Device :=
  let mine := ((List.range 8).filter (d.sensorIncluded t)).map fun k => (k, d.reading t k)
  let d1 := match largest mine with
    | some (k, v) => (d.w (0x1310 + t) 0x09 (ux 16 v)).w (0x1310 + t) 0x0A k
    | none => d
  match largest ((List.range 8).map fun u => (u, d1.tileHottest u)) with
  | some (u, v) => (d1.w 0x1300 0x10 (ux 16 v)).w 0x1300 0x11 u
  | none => d1

/-! ## Levels (R378, R379, R381) -/

/-- Whether level `l` (0 warning, 1 throttle, 2 shutdown) is asserted after a reading (R379). -/
def levelNow (d : Device) (t l : Nat) : Bool :=
  let thr : Int := 16 * (d.act 0x1300 (1 + l) : Int)
  let hyst : Int := 16 * (d.act 0x1300 (4 + l) : Int)
  let v := d.tileHottest t
  decide (thr ≤ v) || (bit (d.o (0x1310 + t) 0x0B) l && decide (thr - hyst ≤ v))

/-- The level is due to FAULT codes alone: no included sensor with a valid reading reaches it (R382). -/
def faultOnly (d : Device) (t : Nat) : Bool :=
  (List.range 8).all fun k =>
    !(d.sensorIncluded t k) || d.reading t k == 2400 || decide (d.reading t k < 16 * (d.act 0x1300 0x03 : Int))

/-- The shutdown level asserts (R382): an orderly stop, or a hard trip when the prediction is 1 ms or less. -/
def shutdownAsserts (t : Nat) (d : Device) : Device :=
  if d.o 0x1300 0x12 ≠ 0 then d
  else if d.faultOnly t || decide (1000 < d.o 0x1300 0x17) then orderlyStop d
  else hardTrip 2 d

/-- Throttle time is added up while the level is asserted (R381); the command that the edge brings moves the tile (R380). -/
def throttleEdge (t : Nat) (on : Bool) (d : Device) : Device :=
  let since := Cells.read 0 t d.power.throttleSince
  let d1 := if on then d else d.addWrap (0x1310 + t) 0x0E 8 (d.cycle - since)
  settleBy true t
    ({ d1 with power := { d1.power with throttleSince := Cells.write 0 t d.cycle d1.power.throttleSince } }.raise 1)

/-- The three levels of tile `t` after a conversion, with the events of their edges (R378, R379). -/
def settleThermal (t : Nat) (d : Device) : Device :=
  let was := d.o (0x1310 + t) 0x0B
  let l0 := d.levelNow t 0
  let l1 := d.levelNow t 1
  let l2 := d.levelNow t 2
  let d1 := d.w (0x1310 + t) 0x0B ((if l0 then 1 else 0) + (if l1 then 2 else 0) + (if l2 then 4 else 0))
  let d2 := if l0 && !(bit was 0) then
      (if d1.o 0x1300 0x11 = t then (d1.raise (tileSource t 4)).raise 0 else d1.raise (tileSource t 4)) else d1
  let d3 := if l1 != bit was 1 then throttleEdge t l1 d2 else d2
  if l2 && !(bit was 2) then shutdownAsserts t d3 else d3

/-- Whether the part is below its shutdown temperature (R290): a tile whose hottest reading is at the threshold ends it, and
eight tiles below it restore it. -/
def settleBelow (t : Nat) (d : Device) : Device :=
  let thr : Int := 16 * (d.act 0x1300 0x03 : Int)
  if thr ≤ d.tileHottest t then d.setGuarantee 0 false
  else if (List.range 8).all (fun u => decide (d.tileHottest u < thr)) = true then d.setGuarantee 0 true
  else d

/-! ## Life counters (R399) -/

/-- The time since the last conversion, at the reading that stood, with what was counted before (R399): the reading summed over
time, and the ns from 95 to 105 °C and above. -/
def lifeNow (d : Device) : Int × Nat × Nat :=
  let dt := d.cycle - d.power.converted
  let v := sx 16 (d.o 0x1300 0x10)
  (d.power.tempSum + v * (dt : Int), d.power.warmNs + (if 1520 ≤ v ∧ v ≤ 1680 then dt else 0),
    d.power.hotNs + (if 1680 < v then dt else 0))

/-- The time since the last conversion is counted, before the reading moves (R399). -/
def settleLife (d : Device) : Device :=
  let x := d.lifeNow
  { d with power := { d.power with converted := d.cycle, tempSum := x.1, warmNs := x.2.1, hotNs := x.2.2 } }

/-- What the objects 0x1390.10 to .13 read (R389, R399): the powered time, the two bands in s, and the mean. -/
def lifeValue (d : Device) (sub : Nat) : Nat :=
  let x := d.lifeNow
  if sub = 0x10 then d.cycle / 10 ^ 9
  else if sub = 0x11 then x.2.1 / 10 ^ 9
  else if sub = 0x12 then x.2.2 / 10 ^ 9
  else ux 32 (if d.cycle = 0 then sx 16 (d.o 0x1300 0x10) else tdiv x.1 d.cycle)

/-- The sensors convert once the trims of boot stage 2 are applied. -/
def sensorsTrimmed (d : Device) : Bool := decide (3 ≤ d.o 0x1200 0x01) && d.o 0x1200 0x04 != 1

/-- A conversion of the eight sensors of tile `t` (R374 to R381, R360, R399). -/
def conversionOp (t : Nat) (conv : List Conversion) (d : Device) : Device :=
  if d.sensorsTrimmed = false then d
  else
    let d1 := settleHottest t (convertSensors t 0 (conv.take 8) (settleLife d))
    settleRelease (settleTiles (calTemperature t (settleThermal t (settleBelow t d1))))

/-- A check point that reads more than 3 °C from its trimmed value fails (R375). -/
def checkFails (deviation : Int) : Bool := decide (48 < deviation.natAbs)

def selfTestSensor (t : Nat) (deviations : List Int) (k : Nat) (d : Device) : Device :=
  if checkFails (deviations.getD k 0) && !(d.sensorFault t k) then enterFault t k 3 d else d

/-- The check points of tile `t` are converted (R375): by how much each reads off its trimmed value, in 1/16 °C. -/
def selfTestOp (t : Nat) (deviations : List Int) (d : Device) : Device :=
  if d.sensorsTrimmed = false then d
  else
    settleTiles (calTemperature t (settleThermal t (settleBelow t (settleHottest t
      (each (selfTestSensor t deviations) (List.range 8) (settleLife d))))))

/-! ## Prediction (R382) -/

/-- The chip's hottest valid reading. -/
def hottestValid (d : Device) : Option Int :=
  (largest ((List.range 64).filterMap fun i =>
    if d.sensorIncluded (i / 8) (i % 8) && d.reading (i / 8) (i % 8) != 2400 then some (i, d.reading (i / 8) (i % 8)) else none)).map
    Prod.snd

/-- The reading of 1 ms earlier, newest first in the history. -/
def earlier (now : Nat) (l : List (Nat × Int)) : Option Int :=
  (l.find? fun p => decide (p.1 + 1000000 ≤ now)).map Prod.snd

/-- The time to 125 °C in µs; 0xFFFFFFFF where the reading does not rise, or there is no reading of 1 ms earlier. -/
def predicted (now : Int) (before : Option Int) : Nat :=
  match before with
  | none => 0xFFFFFFFF
  | some b => if now ≤ b then 0xFFFFFFFF else min ((2000 - now).toNat * 1000 / (now - b).toNat) 0xFFFFFFFE

/-- A prediction; in an orderly stop one of 1 ms or less makes a hard trip (R382, R383). -/
def predictionOp (d : Device) : Device :=
  match d.hottestValid with
  | none => d.w 0x1300 0x17 0xFFFFFFFF
  | some v =>
    let p := predicted v (earlier d.cycle d.power.history)
    let d1 := { d with power := { d.power with history := ((d.cycle, v) :: d.power.history).take 12 } }.w 0x1300 0x17 p
    if d.o 0x1300 0x12 = 1 ∧ p ≤ 1000 then hardTrip 4 d1 else d1

/-- An analog comparator trips (R384): THERMTRIP_N goes low in SHUTDOWN too. -/
def analogTripOp (t : Nat) (d : Device) : Device :=
  let d1 := d.w (0x1310 + t) 0x0F 1
  hardTrip 3 { d1 with power := { d1.power with thermtrip := true } }

/-! ## The thermal commit (R376, R378) -/

def thermalKeys : List Nat := subKeys 0x1300 0x01 7

def thermalCheck (d : Device) : Nat :=
  let v (sub : Nat) : Nat := d.pnd 0x1300 sub
  let hystBad (x : Nat) : Bool := x == 0 || decide (15 < x)
  verdict [
    (codeOutOfRange, decide (v 0x01 < 50) || decide (110 < v 0x01) || decide (120 < v 0x03) || hystBad (v 0x04) ||
      hystBad (v 0x05) || hystBad (v 0x06)),
    (codeInconsistent, !(decide (v 0x01 < v 0x02) && decide (v 0x02 < v 0x03)) ||
      (List.range 8).any fun t => decide (((List.range 8).filter fun k => !(bit (v 0x07) (8 * t + k))).length < 4))]

/-- A thermal commit: applied in the first Crocus cycle after its checks (R378). -/
def thermalCommitOp (d : Device) : Device :=
  commitBoundary .thermal thermalKeys (okey 0x1300 0x0E) thermalCheck id
    (commitWrite .thermal thermalKeys (okey 0x1300 0x0E) thermalCheck d)

/-! ## Supplies (R389) -/

/-- A rail has stayed outside its range for 10 µs. -/
def supplyOutOp (rail : Nat) (d : Device) : Device :=
  let was := d.o 0x1390 0x08
  let d1 := setGuarantee d 1 false
  let d2 := d1.wbit 0x1390 0x08 rail true
  if was = 0 then (d2.addSat 0x1390 0x09 4 1).raise 6 else d2

/-- A rail is back in its range. -/
def supplyBackOp (rail : Nat) (d : Device) : Device :=
  let d1 := d.wbit 0x1390 0x08 rail false
  if d1.o 0x1390 0x08 = 0 then setGuarantee d1 1 true else d1

end Device

open Device

/-- TABLE_PERIOD_BOUNDARY (R254). -/
def execTablePeriodBoundary (s : State) : Host.Outcome State Fault Refusal := nextDev s (periodBoundary s.dev)

/-- LATENCY_TOLERANCE (R369). -/
def execLatencyTolerance (p : Port) (t : Tile) (v : BitVec 32) (s : State) : Host.Outcome State Fault Refusal :=
  nextDev s (s.dev.hostWrite p (0x1320 + t.val) 0x01 v.toNat false (toleranceOp t.val v.toNat))

/-- POWER_STATE_CHANGE (R371). -/
def execPowerStateChange (t : Tile) (s : State) : Host.Outcome State Fault Refusal := nextDev s (powerChangeOp t.val s.dev)

/-- DORMANT_REENTRY (R372). -/
def execDormantReentry (t : Tile) (s : State) : Host.Outcome State Fault Refusal := nextDev s (reentryOp t.val s.dev)

/-- SENSOR_CONVERSION (R374). -/
def execSensorConversion (t : Tile) (conv : List Conversion) (s : State) : Host.Outcome State Fault Refusal :=
  nextDev s (conversionOp t.val conv s.dev)

/-- SENSOR_SELF_TEST (R375). -/
def execSensorSelfTest (t : Tile) (deviations : List Int) (s : State) : Host.Outcome State Fault Refusal :=
  nextDev s (selfTestOp t.val deviations s.dev)

/-- TEMPERATURE_PREDICTION (R382). -/
def execTemperaturePrediction (s : State) : Host.Outcome State Fault Refusal := nextDev s (predictionOp s.dev)

/-- ANALOG_TRIP (R384). -/
def execAnalogTrip (t : Tile) (s : State) : Host.Outcome State Fault Refusal := nextDev s (analogTripOp t.val s.dev)

/-- SHUTDOWN_COMPLETE (R383). -/
def execShutdownComplete (s : State) : Host.Outcome State Fault Refusal := nextDev s (shutdownDoneOp s.dev)

/-- THERMAL_COMMIT (R378). -/
def execThermalCommit (p : Port) (v : Byte) (s : State) : Host.Outcome State Fault Refusal :=
  nextDev s (s.dev.hostWrite p 0x1300 0x0F v.toNat false thermalCommitOp)

/-- SUPPLY_OUT_OF_RANGE (R389). -/
def execSupplyOutOfRange (rail : Fin 7) (s : State) : Host.Outcome State Fault Refusal := nextDev s (supplyOutOp rail.val s.dev)

/-- SUPPLY_BACK_IN_RANGE (R389). -/
def execSupplyBackInRange (rail : Fin 7) (s : State) : Host.Outcome State Fault Refusal := nextDev s (supplyBackOp rail.val s.dev)

end Sys2Proof.Machine
end

