-- ==== Sys2Proof/Machine/Boot.lean ====
section
/-!
DEFINITION. PORST_N, the boot stages up to the image's authentication, the boot restart, the ring state, the management cores,
primacy and the fuses (R330 to R344, R388, R389, R400), and leaving shutdown (R385).
-/
namespace Sys2Proof.Machine

namespace Device

/-! ## PORST_N (R330, R341, R388, R389) -/

/-- Every block reset: the Primrose copies, what their read paths turn over, and the burned fuses stay (R336, R341). -/
def porstReset (held : Bool) (d : Device) : Device :=
  { Device.reset with
    objs := d.objs.filter fun p => p.1 == okey 0x1220 1 || p.1 == okey 0x1220 2 || p.1 == okey 0x1220 3,
    freeCtr := d.freeCtr,
    boot := { BootState.init with held := held, burned := d.boot.burned, pathW := d.boot.pathW, pathE := d.boot.pathE } }

/-- FAULT_N is driven low until release to READY, and then while the latch is set (R299). -/
def faultNLow (d : Device) : Bool := !d.ready || d.event.faultLatch

/-! ## The ring state (R57, R400) -/

def ringOperationalState : Nat := 3

/-- The ring state changes: EV020; the SSP is limited to OBSERVER in OPERATIONAL and returns to OPERATOR after it. -/
def setRingState (v : Nat) (d : Device) : Device :=
  let was := d.o 0x1100 0x05
  if was = v then d
  else
    let d1 := (d.w 0x1100 0x05 v).raise 20
    if v = ringOperationalState then d1.setRole .ssp 0 else if was = ringOperationalState then d1.setRole .ssp 1 else d1

def linkUpNow (d : Device) : Bool := d.o 0x1100 0x0A % 4 != 0

/-- Stage 5 ends at the first link-up: ring join (R57, R330). The ring state is INIT until a new write, also where a request of 2
stands from before (DESIGN CHOICE, log entry 117). -/
def ringJoin (d : Device) : Device :=
  if d.o 0x1200 0x01 = 5 ∧ d.joined = false ∧ d.linkUpNow = true then
    let d1 := (setRingState 1 d).setRole .ring 1
    settleRelease (settleWait { d1 with ring := { d1.ring with prevCyclic := .none } })
  else d

/-! ## Boot stages 1 to 3 -/

/-- Cores in state `v`. -/
def setCores (v : Nat) (d : Device) : Device := (d.w 0x1230 0x01 v).w 0x1231 0x01 v

/-- Stage 1 ends (R330): on REFCLK once it has toggled for 10 µs, or on the RC oscillator where there is none, so that stage 3
waits for it (DEDUCED, log entry 112). -/
def wakeOp (toggles : Bool) (d : Device) : Device :=
  if d.o 0x1200 0x01 = 1 then
    ({ d with refclk := if toggles then .present else .absent, relock := 0 }.w 0x1200 0x01 2).w 0x1200 0x02 2
  else d

/-- Everything that drives or measures stops: flows end with ABORTED, heads stop, measurements and calibrations abort, channels
go to DZ (DESIGN CHOICE, log entry 112: the spec does not say how what runs at a boot restart ends). -/
def stopAll (d : Device) : Device :=
  let d1 := each (endFlowsWith resAborted haltStopped) (List.range 128) (stopHeads d)
  settleTiles (parkChans (List.range 512) (each abortTmu (List.range 512) (each abortCal (List.range 8) d1)))

/-- Boot stops in FAILED (R333): cores in reset, channels at DZ, DPS off. -/
def bootFailed (code : Nat) (d : Device) : Device :=
  setCores 0 (allDpsOff (stopAll (settleWait ((d.w 0x1200 0x01 8).w 0x1200 0x04 code))))

/-- A trims or repair segment cannot be corrected: boot goes on (R335). -/
def segmentFault (bad k : Nat) (d : Device) : Device := if bit bad k then d.raise 16 else d

/-- The drive-rate ceiling's default is the grade's (R76). -/
def gradeCeiling (grade q : Nat) (d : Device) : Device :=
  if grade = 6 then
    let d1 := if d.o (quadIx q) 0x11 = 8000 then d.w (quadIx q) 0x11 6400 else d
    if d1.act (quadIx q) 0x11 = 8000 then d1.wact (quadIx q) 0x11 6400 else d1
  else d

/-- How many of the lowest `n` bits are set. -/
def bitCount (n v : Nat) : Nat := ((List.range n).filter (bit v)).length

/-- The bits of segment `k` of the fuse map (R335): its data bits and its check bits. -/
def segmentMask (k : Nat) : Nat := (2 ^ 1920 - 1) * 2 ^ (1920 * k) + (2 ^ 128 - 1) * 2 ^ (15360 + 128 * k)

/-- The bits of segment `k` that are read wrong. -/
def segmentErrors (wrong k : Nat) : Nat := bitCount 1920 (bitf wrong (1920 * k) 1920) + bitCount 128 (bitf wrong (15360 + 128 * k) 128)

/-- The segments whose code corrects them no more: above 10 wrong bits (R335). -/
def badSegments (wrong : Nat) : List Nat := (List.range 8).filter fun k => decide (10 < segmentErrors wrong k)

/-- Bit k: segment k cannot be corrected (0x1210.03). -/
def badMask (wrong : Nat) : Nat := (badSegments wrong).foldl (fun m k => setBit m k true) 0

/-- The bits corrected at this stage 2 (0x1210.04). -/
def correctedBits (wrong : Nat) : Nat :=
  (((List.range 8).map (segmentErrors wrong)).filter fun n => decide (n ≤ 10)).foldl (· + ·) 0

/-- The map as it comes out of the correction (R335): a segment that cannot be corrected stays as it was read (DESIGN CHOICE, log
entry 112). -/
def correctedMap (programmed wrong : Nat) : Nat :=
  programmed ^^^ (wrong &&& ((badSegments wrong).map segmentMask).foldl (· + ·) 0)

/-- Trims and repair as they take effect: the data of a segment from 1 to 7 that cannot be corrected falls back to nominal (R335);
data bits 960 and up are trims and repair together. -/
def appliedTrims (map bad : Nat) : BitVec 14400 :=
  let bits := BitVec.ofNat 14400 (map / 2 ^ 960)
  if bad / 2 = 0 then bits
  else
    let mask := (List.range 14400).foldl (fun m i => setBit m i (bit bad ((960 + i) / 1920))) 0
    (bits &&& ~~~(BitVec.ofNat 14400 mask)) ||| (Config.nominalTrims &&& BitVec.ofNat 14400 mask)

/-- The fuse fields as objects and inside (R334, R336). -/
def applyFuses (map bad corrected : Nat) (d : Device) : Device :=
  let options := bitf map 832 64
  let pkhash := bitf map 128 384
  let d1 := ((d.w 0x1000 0x03 (bitf map 64 8)).w 0x1000 0x04 (bitf map 72 8)).w 0x1000 0x05 (bitf map 0 64)
  let d2 := ((d1.w 0x1210 0x01 (48 + 2 ^ 16 * pkhash)).w 0x1210 0x02 options).w 0x1210 0x03 bad
  let d3 := (d2.w 0x1210 0x04 corrected).w 0x1210 0x05 (bitCount 64 (bitf map 768 64 ||| d.boot.burned))
  let d4 := d3.w 0x1250 0x05 (if bit options 1 then 0 else 1)
  let d5 := { d4 with boot := { d4.boot with
    devkey := BitVec.ofNat 256 (bitf map 512 256), pkhash := BitVec.ofNat 384 pkhash, mapver := BitVec.ofNat 16 (bitf map 80 16),
    rcTrim := BitVec.ofNat 32 (bitf map 96 32), locks := BitVec.ofNat 64 (bitf map 896 64),
    check := BitVec.ofNat 1024 (map / 2 ^ 15360), trims := appliedTrims map bad } }
  each (gradeCeiling (bitf map 64 8)) (List.range 128)
    (each (fun k e => e.w (0x1241 + k) 0x01 (if k = d5.bootSelect then 1 else 0)) [0, 1, 2, 3] d5)

/-- Stage 2 ends (R330, R335): the map as it was programmed, and the bits of it that are read wrong. -/
def fuseOp (programmed wrong : Nat) (d : Device) : Device :=
  if d.o 0x1200 0x01 ≠ 2 then d
  else
    let bad := badMask wrong
    let d1 := applyFuses (correctedMap programmed wrong) bad (correctedBits wrong) d
    if bit bad 0 then bootFailed 1 d1
    else
      let d2 := each (segmentFault bad) [1, 2, 3, 4, 5, 6, 7] d1
      nextFrame (settleWait ((d2.w 0x1200 0x01 3).w 0x1200 0x02 5))

/-! ## The read of a slot (R332, R333, R348) -/

/-- The slot in hand has failed (R333): slot B is tried, or boot FAILS. -/
def failSlot (code : Nat) (d : Device) : Device :=
  let n := d.boot.slotBytes + d.boot.slotData.length
  let d1 := if d.boot.slot = 0 then d.w 0x1200 0x09 code else d
  if d.boot.slot = 0 ∧ bit (d.o 0x1210 0x02) 0 = true then
    nextFrame ({ d1 with boot := { d1.boot with slot := 1, slotBytes := n, slotData := [], switched := 0 } }.w 0x1200 0x02 5)
  else bootFailed code d1

/-- `n` bytes of the slot in hand have been read: position and percent move (R332). The percent stays while no good header says
the image length. -/
def slotProgress (n : Nat) (d : Device) : Device :=
  let b := d.boot.slotData
  let d1 := d.w 0x1200 0x03 (max (d.o 0x1200 0x03) (d.boot.slotBytes + n))
  if headerPasses b then d1.w 0x1200 0x02 (5 + 75 * n / imageLength b) else d1

/-- A boot frame has read the next `len` bytes of the slot; a shorter list is not its end (log entry 75). -/
def bootReadDone (len : Nat) (data : List Byte) (d : Device) : Device :=
  if d.refclk ≠ .present ∨ data.length < len then d
  else
    let b := d.boot.slotData ++ data.take len
    nextFrame (freePort (slotProgress b.length { d with boot := { d.boot with slotData := b } }))

/-- Mode-switch frame `i` has been sent. -/
def bootSwitched (i : Nat) (d : Device) : Device :=
  if d.refclk ≠ .present then d else nextFrame (freePort { d with boot := { d.boot with switched := i + 1 } })

/-- A frame of the boot engine is on the port. -/
def bootFrameRuns (d : Device) : Bool := match d.boot.csp with
  | some (.bootRead _) => true
  | some (.bootSwitch _) => true
  | _ => false

/-- The boot engine has read what it reads of the slot. -/
def slotWasRead (d : Device) : Bool :=
  d.o 0x1200 0x01 == 3 && d.refclk == .present && !d.bootFrameRuns && d.bootFrame.isNone

/-- The image takes effect (R337, R339, R341, R342): stage 3 ends. Each half decides on the copies as its own read path gives
them. -/
def applyImage (b : List Byte) (d : Device) : Device :=
  let im := stageImage d.boot.slot b
  let version := Config.firmwareVersion (ofBE im.digest) % 2 ^ 32
  let d1 := ((d.w 0x1200 0x05 im.slot).w 0x1200 0x07 im.length).w 0x1200 0x08 im.security
  let d2 := (d1.w 0x1260 0x09 (8 + 2 ^ 16 * ofLE (im.digest.take 8))).w 0x1600 0x02 im.training
  let d3 := ((d2.w (0x1241 + d.bootSelect) 0x02 im.fastRead).w 0x1230 0x03 version).w 0x1231 0x03 version
  let d4 := if ([0, 1, 2].any fun i => copyValid (d3.primrose i)) = true then d3 else writeCopies (makeCopy im.primacy 1) d3
  let d5 := decidePrimacy d4.storedCopies (d4.seenBy d4.boot.pathW) (d4.seenBy d4.boot.pathE) (setCores 1 d4)
  ({ d5 with boot := { d5.boot with image := some im, slotData := [] } }.w 0x1200 0x01 4).w 0x1200 0x02 85

/-- `n` bytes of the boot frame on the port have been read. -/
def slotPart (n : Nat) (d : Device) : Device := match d.boot.csp with
  | some (.bootRead len) => if d.refclk ≠ .present ∨ len < n then d else slotProgress (d.boot.slotData.length + n) d
  | _ => d

/-- A slot has been read and is authenticated (R333, R338): it passes, or it fails. -/
def imageOp (d : Device) : Device :=
  if d.slotWasRead = false then d
  else
    let code := imageFailure d.boot.slotData d.boot.pkhash.toNat (d.o 0x1210 0x05)
    if code = 0 then applyImage d.boot.slotData d else failSlot code d

/-- The read of a slot has got so far, or is over. -/
def slotRead (r : SlotRead) (d : Device) : Device := match r with
  | .part n => slotPart n.toNat d
  | .whole => imageOp d

/-- A host frame that the port drops reads IDLE. -/
def freeCsp (d : Device) : Device := if d.o 0x1240 0x04 = 1 then d.w 0x1240 0x04 0 else d

/-- Boot starts again from stage 2 (R333): the ring state reads DOWN until the next join, the cores are in reset and the CSP
is idle; what runs stops. -/
def restartBoot (d : Device) : Device :=
  let d1 := setCores 0 (setRingState 0 (stopAll d))
  let d2 := freeCsp (((d1.w 0x1220 0x04 2).w 0x1230 0x02 0).w 0x1231 0x02 0)
  let d3 := each (fun sub e => e.w 0x1200 sub (resetValue (okey 0x1200 sub))) [0x03, 0x04, 0x05, 0x06, 0x07, 0x08, 0x09, 0x0A] d2
  ({ d3 with boot := { BootState.init with
      devkey := d3.boot.devkey, pkhash := d3.boot.pkhash, mapver := d3.boot.mapver, rcTrim := d3.boot.rcTrim,
      locks := d3.boot.locks, check := d3.boot.check, trims := d3.boot.trims, burned := d3.boot.burned,
      stores := d3.boot.stores, cfeCode := d3.boot.cfeCode, pathW := d3.boot.pathW, pathE := d3.boot.pathE } }.w 0x1200 0x01 2).w 0x1200 0x02 2

/-- A boot restart is allowed from the SSP, or while the ring state is OPERATIONAL (R333). -/
def restartForbidden (p : Port) (d : Device) : Bool := p == .ring && d.o 0x1100 0x05 != ringOperationalState

/-! ## The management cores (R339, R340) -/

/-- The pages in the execution cache of half `h`, oldest first (R339). -/
def cached (d : Device) (h : Nat) : List (Nat × List Byte) := Cells.read [] h d.boot.cache

def setCached (h : Nat) (l : List (Nat × List Byte)) (d : Device) : Device :=
  { d with boot := { d.boot with cache := Cells.write [] h l d.boot.cache } }

/-- A page goes into the cache of half `h`: 64 pages of 64 KiB. Which page leaves a full cache is a free value (log entry 71). -/
def cachePage (h page : Nat) (bytes : List Byte) (d : Device) : Device :=
  let l := (d.cached h).filter fun x => x.1 != page
  if l.length < 64 then setCached h (l ++ [(page, bytes)]) d
  else setCached h (l.eraseIdx (Config.unstated d.freeCtr % 64) ++ [(page, bytes)]) d.fresh

/-- The watchdog restarts core `h`, which has not serviced it for 100 ms, RESTARTING or not (R340). It executes from its entry
point, with its cache empty (DESIGN CHOICE, log entry 71). -/
def watchdogOp (h : Nat) (d : Device) : Device :=
  let st := d.o (0x1230 + h) 0x01
  if st = 1 ∨ st = 2 then
    setCached h [] (((d.w (0x1230 + h) 0x01 2).addSat (0x1230 + h) 0x04 4 1).w (0x1230 + h) 0x06 1)
  else d

/-- The SHA-384 of the bytes is that of page `page` in the booted image's PAGE-DIGESTS section (R339). -/
def pageGood (d : Device) (page : Nat) (bytes : List Byte) : Bool := match d.boot.image with
  | some im => im.pageDigests[page]? == some (sha384 bytes)
  | none => false

/-- The mismatches in a row on the last page that half `h` fetched, where that was `page`. -/
def pageMisses (d : Device) (h page : Nat) : Nat :=
  let x := Cells.read (0, 0) h d.boot.pageMiss
  if x.1 = page then x.2 else 0

def setPageMiss (h : Nat) (x : Nat × Nat) (d : Device) : Device :=
  { d with boot := { d.boot with pageMiss := Cells.write (0, 0) h x d.boot.pageMiss } }

/-- A firmware page has been fetched through the boot select's window and its SHA-384 is compared (R339): it goes into the cache and
runs, or it is refetched; the third mismatch in a row on one page is FAULTED. While a translated write runs on that window the
fetch waits (R350). -/
def pageOp (h page : Nat) (bytes : List Byte) (d : Device) : Device :=
  let st := d.o (0x1230 + h) 0x01
  if st = 0 ∨ st = 3 ∨ d.windowBusy d.bootSelect = true then d
  else if d.pageGood page bytes then settleTiles (cachePage h page bytes (setPageMiss h (0, 0) (d.w (0x1230 + h) 0x01 1)))
  else
    let n := d.pageMisses h page + 1
    let d1 := setPageMiss h (if n < 3 then (page, n) else (0, 0)) (d.addSat (0x1230 + h) 0x05 4 1)
    if n < 3 then d1 else (d1.w (0x1230 + h) 0x01 3).w (0x1230 + h) 0x06 2

/-- A write of the primacy assignment (R344). -/
def primacyOp (h : Nat) (d : Device) : Device :=
  if d.boot.safeHold then takePrimacy h (d.w 0x1220 0x08 1)
  else if d.primacyBusy then d.w 0x1220 0x08 2
  else { d with boot := { d.boot with pendingPrimacy := some h } }.w 0x1220 0x08 1

/-- The next ROLLBACK bit is burned (R336). -/
def burnOp (v : Nat) (d : Device) : Device :=
  { d with boot := { d.boot with burned := setBit d.boot.burned (v - 1) true } }.w 0x1210 0x05 v

/-! ## Leaving shutdown (R385) -/

/-- The objects that a re-arm keeps. -/
def keptByReArm (k : Nat) : Bool :=
  let ix := k % 2 ^ 24 / 256
  decide (k < queueBase ∨ pendBase ≤ k) &&
  ((decide (0x1100 ≤ ix) && decide (ix < 0x1200)) || ix == 0x1220 || (decide (0x1300 ≤ ix) && decide (ix < 0x1400)))

/-- The levels of tile `t` assert, with no event, and its passed self-tests clear FAULT. The time that the throttle level has been
asserted so far is kept (R381). -/
def reArmTile (failed t : Nat) (d : Device) : Device :=
  let faults := (List.range 8).foldl (fun a k => setBit a k (bit a k && bit failed (8 * t + k))) (d.o (0x1310 + t) 0x0C)
  let since := Cells.read 0 t d.power.throttleSince
  let d0 := if d.throttled t then d.addWrap (0x1310 + t) 0x0E 8 (d.cycle - since) else d
  let d1 := ((d0.w (0x1310 + t) 0x0B 7).w (0x1310 + t) 0x0F 0).w (0x1310 + t) 0x0C faults
  { d1 with power := { d1.power with throttleSince := Cells.write 0 t d1.cycle d1.power.throttleSince } }

/-- Why a re-arm is refused, 1 when it is accepted: not SHUTDOWN, a sensor that fails, a warning that stands. -/
def reArmResult (failed : Nat) (d : Device) : Nat :=
  if d.o 0x1300 0x12 ≠ 2 then 2
  else if ((List.range 64).any fun i => d.sensorIncluded (i / 8) (i % 8) && bit failed i) = true then 4
  else if ((List.range 8).any fun t => bit (d.o (0x1310 + t) 0x0B) 0) = true then 3
  else 1

/-- The guarantee conditions of temperature and supplies hold after a re-arm as they held before it (R290, R389). -/
def keepGuarantees (before d : Device) : Device :=
  setGuarantee (setGuarantee d 0 (bit (before.o 0x1780 0x01) 0)) 1 (before.o 0x1390 0x08 == 0)

/-- The cold start from stage 2: what is kept, and everything else as after PORST_N. -/
def coldStart (d : Device) : Device :=
  let d1 := setRingState 0 d
  let d2 := { Device.reset with
    objs := d1.objs.filter fun p => keptByReArm p.1,
    cycle := d1.cycle, ringNs := d1.ringNs, ringFrac := d1.ringFrac, steer := d1.steer, steerRem := d1.steerRem,
    refclk := d1.refclk, relock := d1.relock, freeCtr := d1.freeCtr,
    ring := { d1.ring with rolePending := (none, none), lockoutEnd := (0, 0), overFails := (0, 0) },
    boot := { BootState.init with burned := d1.boot.burned, pathW := d1.boot.pathW, pathE := d1.boot.pathE },
    power := { d1.power with cal := [], coefs := [], same := [], thermtrip := false } }
  settleTiles (keepGuarantees d ((d2.w 0x1200 0x01 2).w 0x1200 0x02 2))

/-- A write of 1 to the re-arm object (R385). -/
def reArmOp (failed : Nat) (d : Device) : Device :=
  let r := reArmResult failed d
  let d1 := d.w 0x1300 0x15 r
  if r = 1 then coldStart (each (reArmTile failed) (List.range 8) (d1.w 0x1300 0x12 0)) else d1

end Device

open Device

/-- PORST_N (R330): released; boot stage 1 begins. -/
def execPorstN (s : State) : Host.Outcome State Fault Refusal := .next { s with dev := porstReset false s.dev }

/-- PORST_N_ASSERTION (R388): the part is held in reset until release. -/
def execPorstNAssertion (s : State) : Host.Outcome State Fault Refusal := .next { s with dev := porstReset true s.dev }

/-- VAON_RESET (R389): as PORST_N does. -/
def execVaonReset (s : State) : Host.Outcome State Fault Refusal :=
  .next { s with dev := porstReset s.dev.boot.held s.dev }

/-- WAKE (R330). -/
def execWake (toggles : Bool) (s : State) : Host.Outcome State Fault Refusal := nextDev s (wakeOp toggles s.dev)

/-- FUSE_READ_DONE (R335). -/
def execFuseReadDone (programmed wrong : BitVec 16384) (s : State) : Host.Outcome State Fault Refusal :=
  nextDev s (fuseOp programmed.toNat wrong.toNat s.dev)

/-- IMAGE_READ_DONE (R332, R338). -/
def execImageReadDone (r : SlotRead) (s : State) : Host.Outcome State Fault Refusal := nextDev s (slotRead r s.dev)

/-- BOOT_RESTART (R333). -/
def execBootRestart (p : Port) (v : Byte) (s : State) : Host.Outcome State Fault Refusal :=
  nextDev s (s.dev.hostWrite p 0x1200 0x0B v.toNat (restartForbidden p s.dev) restartBoot)

/-- CORE_WATCHDOG (R340). -/
def execCoreWatchdog (h : Half) (s : State) : Host.Outcome State Fault Refusal := nextDev s (watchdogOp h.val s.dev)

/-- PAGE_FILL (R339). -/
def execPageFill (h : Half) (page : BitVec 10) (bytes : List Byte) (s : State) : Host.Outcome State Fault Refusal :=
  nextDev s (pageOp h.val page.toNat bytes s.dev)

/-- PRIMROSE_REREAD (R343). -/
def execPrimroseReread (arbiter halfW halfE : Copies) (s : State) : Host.Outcome State Fault Refusal :=
  nextDev s (rereadOp arbiter halfW halfE s.dev)

/-- PRIMACY_ASSIGNMENT (R344). -/
def execPrimacyAssignment (p : Port) (v : Byte) (s : State) : Host.Outcome State Fault Refusal :=
  nextDev s (s.dev.hostWrite p 0x1220 0x07 v.toNat false (primacyOp v.toNat))

/-- ROLLBACK_BURN (R336). -/
def execRollbackBurn (p : Port) (v : Byte) (s : State) : Host.Outcome State Fault Refusal :=
  nextDev s (s.dev.hostWrite p 0x1210 0x05 v.toNat false (burnOp v.toNat))

/-- THERMAL_RE_ARM (R385). -/
def execThermalReArm (p : Port) (v : Byte) (selfTestFailed : BitVec 64) (s : State) : Host.Outcome State Fault Refusal :=
  nextDev s (s.dev.hostWrite p 0x1300 0x14 v.toNat false (reArmOp selfTestFailed.toNat))

end Sys2Proof.Machine
end

