-- ==== Sys2Proof/Machine/Csp.lean ====
section
/-!
DEFINITION. The CSP's commands (R345 to R350): host frames, window reads and translated window writes, and how a frame on the port
ends, the boot engine's among them.
-/
namespace Sys2Proof.Machine

/-- The host buffer's value after a read of `len` bytes: a BLOB of at most 256 bytes, 0 beyond the data length (R349). -/
def cspBuffer (len : Nat) (data : List Byte) : Nat := min len 256 + 2 ^ 16 * ofLE ((data.take len).take 256)

namespace Device

/-- A write of 1 to the frame start (R349). -/
def hostFrameOp (d : Device) : Device :=
  let x := d.o 0x1240 0x01
  if d.o 0x1240 0x04 = cspStatusBusy then d
  else if cspGood true x = false then setHostStatus cspStatusRefused d
  else if cspEmpty x then setHostStatus cspStatusOk (d.addSat 0x1240 0x05 4 1)
  else nextFrame (setHostStatus cspStatusBusy { d with boot := { d.boot with hostDesc := x } })

/-! ## Translated writes (R350) -/

/-- The next stage of the write that a frame served. -/
def advanceWrite (k : Nat) (program : Bool) (d : Device) : Device :=
  match d.oldestWrite k with
  | some x =>
    let interval := 1000 * d.winDesc k 0x09
    let stage := if program then WriteStage.poll d.cycle (d.cycle + interval) else d.afterEnable x
    setWrite k (some { x with stage := stage }) d
  | none => d

/-- The write in hand is over; the next of its select starts at its first stage. -/
def endWrite (k : Nat) (d : Device) : Device :=
  let d1 := setWrite k none d
  match d1.oldestWrite k with
  | some y => setWrite k (some (d1.beginPiece y)) d1
  | none => d1

/-- A poll that does not find the ready value: the next comes after the interval. -/
def pollAgain (k : Nat) (d : Device) : Device :=
  match d.oldestWrite k with
  | some x =>
    match x.stage with
    | .poll since _ => setWrite k (some { x with stage := .poll since (d.cycle + 1000 * d.winDesc k 0x09) }) d
    | _ => d
  | none => d

/-- A status frame has read `status`: the piece is done, or it is polled again. -/
def polled (k status : Nat) (d : Device) : Device :=
  if status &&& d.winDesc k 0x06 = d.winDesc k 0x07 then
    match d.oldestWrite k with
    | some x =>
      let n := d.pieceLen x
      let y := { x with off := x.off + n, data := x.data.drop n }
      if y.data = [] then endWrite k d else setWrite k (some (d.beginPiece y)) d
    | none => d
  else pollAgain k d

/-! ## The end of a frame -/

/-- The frame on the CSP has run its phases (R345). A status frame without a data byte reads a free value. -/
def cspFrameDone (data : List Byte) (d : Device) : Device :=
  match d.boot.csp with
  | none => d
  | some .host =>
    let x := d.boot.cspDesc
    let d1 := setHostStatus cspStatusOk ((freePort d).addSat 0x1240 0x05 4 1)
    nextFrame (if cspLength x ≠ 0 ∧ cspWrites x = false then d1.w 0x1240 0x02 (cspBuffer (cspLength x) data) else d1)
  | some (.windowRead _ _ len) =>
    nextFrame (freePort { d with boot := { d.boot with windowData := data.take len } })
  | some (.writeEnable k) => nextFrame (advanceWrite k false (freePort d))
  | some (.program k) => nextFrame (advanceWrite k true (freePort d))
  | some (.statusPoll k) =>
    nextFrame (match data with
      | b :: _ => polled k b.toNat (freePort d)
      | [] => polled k (Config.unstated d.freeCtr % 256) (freePort d).fresh)
  | some (.bootRead len) => bootReadDone len data d
  | some (.bootSwitch i) => bootSwitched i d

/-- CSP_RDY has stayed low beyond the ready timeout (R347): the frame ends, the select is released and EV025 is raised; a boot frame
fails the slot with CSP-TIMEOUT (R348). -/
def rdyTimeoutOp (d : Device) : Device :=
  let limit := 1000 * d.o 0x1240 0x06
  if cspHonoursRdy d.boot.cspDesc = false ∨ limit = 0 ∨ d.cycle < d.boot.cspSince + limit then d
  else
    let d1 := (freePort d).raise 25
    match d.boot.csp with
    | none => d
    | some .host => nextFrame (setHostStatus cspStatusTimeout d1)
    | some (.windowRead _ _ _) => nextFrame { d1 with boot := { d1.boot with windowData := [] } }
    | some (.writeEnable k) => nextFrame (advanceWrite k false d1)
    | some (.program k) => nextFrame (advanceWrite k true d1)
    | some (.statusPoll k) => nextFrame (pollAgain k d1)
    | some (.bootRead _) => failSlot codeCspTimeout d1
    | some (.bootSwitch _) => failSlot codeCspTimeout d1

/-- A core reads a window (R350): only of an enabled select. -/
def windowReadOp (k off len : Nat) (d : Device) : Device :=
  if d.winDesc k 0x01 = 0 then d
  else if cspDrives (cspPiece (d.winDesc k 0x02) off len) = false then
    { d with boot := { d.boot with windowData := [] } }
  else nextFrame { d with boot := { d.boot with reads := d.boot.reads ++ [(k, off, len)] } }

/-- A core writes into a window (R350). -/
def windowWriteOp (k off : Nat) (data : List Byte) (d : Device) : Device :=
  if d.winDesc k 0x01 = 0 ∨ data = [] then d
  else
    let x : WindowWrite := { k := k, off := off, data := data, stage := .enable, runs := false }
    nextFrame ({ d with boot := { d.boot with writes := d.boot.writes ++ [d.beginPiece x] } }.addSat (0x1241 + k) 0x0B 4 1)

/-- The status of a poll (R350): the status frame that is on the port, or that begins now where one is due, ends with it. -/
def pollOp (k status : Nat) (d : Device) : Device :=
  let d1 := nextFrame d
  if d1.boot.csp = some (.statusPoll k) then nextFrame (polled k status (freePort d1)) else d

/-- The write timeout is reached while polling (R350): judged between status frames. -/
def writeTimeoutOp (k : Nat) (d : Device) : Device :=
  let limit := 1000 * d.winDesc k 0x0A
  match d.oldestWrite k with
  | some x =>
    match x.stage with
    | .poll since _ =>
      if limit = 0 ∨ d.cycle < since + limit ∨ d.boot.csp = some (.statusPoll k) then d
      else nextFrame (endWrite k ((d.addSat (0x1241 + k) 0x0C 4 1).raise 25))
    | _ => d
  | none => d

end Device

open Device

/-- HOST_FRAME_START (R349). -/
def execHostFrameStart (p : Port) (v : Byte) (s : State) : Host.Outcome State Fault Refusal :=
  nextDev s (s.dev.hostWrite p 0x1240 0x03 v.toNat false hostFrameOp)

/-- CSP_FRAME_DONE (R345). -/
def execCspFrameDone (data : List Byte) (s : State) : Host.Outcome State Fault Refusal := nextDev s (cspFrameDone data s.dev)

/-- CSP_RDY_TIMEOUT (R347). -/
def execCspRdyTimeout (s : State) : Host.Outcome State Fault Refusal := nextDev s (rdyTimeoutOp s.dev)

/-- WINDOW_READ (R350). -/
def execWindowRead (k : Sel) (off : BitVec 28) (len : BitVec 16) (s : State) : Host.Outcome State Fault Refusal :=
  nextDev s (windowReadOp k.val off.toNat len.toNat s.dev)

/-- WINDOW_WRITE (R350). -/
def execWindowWrite (k : Sel) (off : BitVec 28) (data : List Byte) (s : State) : Host.Outcome State Fault Refusal :=
  nextDev s (windowWriteOp k.val off.toNat data s.dev)

/-- STATUS_POLL (R350). -/
def execStatusPoll (k : Sel) (status : Byte) (s : State) : Host.Outcome State Fault Refusal :=
  nextDev s (pollOp k.val status.toNat s.dev)

/-- WRITE_TIMEOUT (R350). -/
def execWriteTimeout (k : Sel) (s : State) : Host.Outcome State Fault Refusal := nextDev s (writeTimeoutOp k.val s.dev)

end Sys2Proof.Machine
end

