-- ==== Sys2Proof/Machine/Roles.lean ====
section
/-!
DEFINITION. Roles (R57, R58): requests, challenges, responses and lockouts, for each port.
-/
namespace Sys2Proof.Machine

/-- The part of a pair that belongs to port `p`. -/
def ofPort {α : Type} (p : Port) (x : α × α) : α := match p with
  | .ring => x.1
  | .ssp => x.2

/-- A pair with the part of port `p` replaced. -/
def forPort {α : Type} (p : Port) (v : α) (x : α × α) : α × α := match p with
  | .ring => (v, x.2)
  | .ssp => (x.1, v)

namespace Device

def setPending (p : Port) (v : Option Nat) (d : Device) : Device :=
  { d with ring := { d.ring with rolePending := forPort p v d.ring.rolePending } }

def pendingRole (d : Device) (p : Port) : Option Nat := ofPort p d.ring.rolePending

/-- A role is granted; the SSP is limited to OBSERVER while the ring is OPERATIONAL (R57). -/
def grantRole (p : Port) (r : Nat) (d : Device) : Device :=
  if p = .ssp ∧ d.o 0x1100 0x05 = 3 then d.setRole p 0 else d.setRole p r

/-- A new random challenge, a BLOB of 16 bytes (R58). -/
def newChallenge (p : Port) (d : Device) : Device :=
  d.fresh.put (portKey p 0x1000 0x12) (16 + 2 ^ 16 * (Config.challenge d.freeCtr).toNat)

/-- A write of the role request (R58). -/
def roleRequestOp (p : Port) (v : Nat) (d : Device) : Device :=
  let d1 := d.put (portKey p 0x1000 0x11) v
  if v ≤ 1 then grantRole p v (setPending p none d1) else newChallenge p (setPending p (some v) d1)

/-- The lockout of port `p` runs (R58). -/
def lockedOut (d : Device) (p : Port) : Bool := decide (d.cycle < ofPort p d.ring.lockoutEnd)

/-- What 0x1000.15 reads: the ms left, a begun one as whole. -/
def lockoutLeft (d : Device) (p : Port) : Nat := ceilDiv (ofPort p d.ring.lockoutEnd - d.cycle) 1000000

/-- The right response to the challenge (R58 step 3). -/
def rightResponse (d : Device) (p : Port) (role : Nat) : List Byte :=
  let challenge := leBytes 16 (d.get (portKey p 0x1000 0x12) / 2 ^ 16)
  hmacSha256 (leBytes 32 d.boot.devkey.toNat)
    (challenge ++ [BitVec.ofNat 8 role, BitVec.ofNat 8 (portNo p)] ++ leBytes 8 (d.o 0x1000 0x05))

/-- A lockout of 60 s begins. -/
def beginLockout (p : Port) (d : Device) : Device :=
  { d with ring := { d.ring with
    lockoutEnd := forPort p (d.cycle + 60000000000) d.ring.lockoutEnd,
    overFails := forPort p 0 d.ring.overFails } }.raise 23

/-- A response that does not match: the count, and at every 16th a lockout (R58). -/
def responseFailed (p : Port) (d : Device) : Device :=
  let k := portKey p 0x1000 0x14
  let n := d.get k
  let d1 := newChallenge p (d.put k (satAdd 16 n 1))
  if n < 65535 then (if (n + 1) % 16 = 0 then beginLockout p d1 else d1)
  else
    let m := ofPort p d.ring.overFails + 1
    if m = 16 then beginLockout p d1
    else { d1 with ring := { d1.ring with overFails := forPort p m d1.ring.overFails } }

/-- A write of the response, a BLOB of 32 bytes (R58). -/
def roleResponseOp (p : Port) (v : Nat) (d : Device) : Device :=
  if d.lockedOut p then d
  else match d.pendingRole p with
    | none => d
    | some r =>
      if v % 2 ^ 16 = 32 ∧ leBytes 32 (v / 2 ^ 16) = d.rightResponse p r then
        grantRole p r (setPending p none ((d.put (portKey p 0x1000 0x14) 0)))
      else responseFailed p d

/-- A response with no request pending is a violation, but for one during a lockout (R58). -/
def responseForbidden (d : Device) (p : Port) : Bool := !(d.lockedOut p) && (d.pendingRole p).isNone

/-- The lockout of port `p` ends. -/
def lockoutEndOp (p : Port) (d : Device) : Device :=
  if d.lockedOut p then d
  else { d with ring := { d.ring with lockoutEnd := forPort p 0 d.ring.lockoutEnd } }

/-- A write of the data of a DWR or an SSP WRITE (R56): the size check comes between kinds 2 and 3 of R61, and data of another
size than the object's are malformed. -/
def bytesWrite (p : Port) (ix sub : Nat) (data : List Byte) (forbidden : Bool) (effect : Nat → Device → Device) (d : Device) :
    Device :=
  if p = .ring ∧ d.joined = false then d
  else match d.accessKind p true ix sub with
    | some k => d.violate p ix sub k
    | none =>
      if data.length ≠ objSize ix sub then (if p = .ring then d.addSat 0x1100 0x11 4 1 else d)
      else hostWrite d p ix sub (ofLE data) forbidden (effect (ofLE data))

end Device

open Device

/-- ROLE_RESPONSE (R58). -/
def execRoleResponse (p : Port) (data : List Byte) (s : State) : Host.Outcome State Fault Refusal :=
  nextDev s (bytesWrite p 0x1000 0x13 data (s.dev.responseForbidden p) (roleResponseOp p) s.dev)

/-- ROLE_REQUEST (R58). -/
def execRoleRequest (p : Port) (v : Byte) (s : State) : Host.Outcome State Fault Refusal :=
  nextDev s (s.dev.hostWrite p 0x1000 0x11 v.toNat false (roleRequestOp p v.toNat))

/-- LOCKOUT_END (R58). -/
def execLockoutEnd (p : Port) (s : State) : Host.Outcome State Fault Refusal := nextDev s (lockoutEndOp p s.dev)

end Sys2Proof.Machine
end

