-- ==== Sys2Proof/Machine/Access.lean ====
section
/-!
DEFINITION. The object dictionary as a port sees it (R56, R60, R61): what each object reads, what each write does, the writes
that a block forbids, and ranges.
-/
namespace Sys2Proof.Machine
namespace Device

/-! ## Reading -/

/-- An object of which each port has its own copy (R56, R271, R301). -/
def perPort (ix sub : Nat) : Bool :=
  (ix == 0x1000 && decide (0x10 ≤ sub) && decide (sub ≤ 0x14)) || (ix == 0x1700 && sub == 1) || (ix == 0x1500 && sub == 0x25)

/-- The key that port `p` reads for an object: its own copy, the context of the queue it has selected, or the object's. -/
def readKey (d : Device) (p : Port) (ix sub : Nat) : Nat :=
  if perPort ix sub then portKey p ix sub
  else if ix = 0x1701 ∧ sub ≠ 0 then qkey (d.selected p) sub
  else okey ix sub

/-- The throttle time of tile `t`, the running one with it (R381). -/
def throttleTime (d : Device) (t : Nat) : Nat :=
  wrapAdd 64 (d.o (0x1310 + t) 0x0E) (if d.throttled t then d.cycle - Cells.read 0 t d.power.throttleSince else 0)

/-- The bulk writes completed from the ring port of the frame that passes (R52). -/
def bulkCompleted (d : Device) (p : Port) : Nat := match p, d.ring.link with
  | .ring, .down => d.ring.bulkDone.2
  | _, _ => d.ring.bulkDone.1

/-- What an object reads that is kept in another form than the register file's. -/
def liveValue (d : Device) (p : Port) (ix sub : Nat) : Option Nat :=
  if ix = 0x1000 then (if sub = 0x15 then some (d.lockoutLeft p) else none)
  else if ix = 0x1100 then
    (if sub = 0x08 then some (min Config.forwardingDelay 700000)
     else if sub = 0x0B then some (d.ringNs % 2 ^ 64)
     else if sub = 0x0C then some (d.ringFrac % 2 ^ 16)
     else if sub = 0x17 then some (d.bulkCompleted p)
     else none)
  else if 0x1310 ≤ ix ∧ ix < 0x1318 ∧ sub = 0x0E then some (d.throttleTime (ix - 0x1310))
  else if ix = 0x1390 ∧ 1 ≤ sub ∧ sub ≤ 7 then
    some (if d.cycle < 10000 then 0 else Config.railVoltage sub (d.cycle / 10000) % 2 ^ 32)
  else if ix = 0x1390 ∧ 0x10 ≤ sub ∧ sub ≤ 0x13 then some (d.lifeValue sub)
  else if ix = 0x1500 ∧ sub = 0x08 then some d.linesAsserted
  else if ix = 0x1501 ∧ sub = 0x01 then some (d.bankContents (d.bankSelected p))
  else if 0x1620 ≤ ix ∧ ix < 0x1640 ∧ sub = 0x0A then some (d.slotMap (ix - 0x1620))
  else if 0x1810 ≤ ix ∧ ix < 0x1812 ∧ sub = 0x25 then some (d.currentLine (ix - 0x1810))
  else if 0x2200 ≤ ix ∧ ix < 0x2280 ∧ sub = 0x6A then some (d.condInputs (ix - 0x2200))
  else if 0x2200 ≤ ix ∧ ix < 0x2280 ∧ sub = 0x78 then some (d.quadFill (ix - 0x2200))
  else if 0x2200 ≤ ix ∧ ix < 0x2280 ∧ sub = 0x7E then some (d.runAheadOf (ix - 0x2200))
  else none

/-- The value that port `p` reads. -/
def readValue (d : Device) (p : Port) (ix sub : Nat) : Nat := match d.liveValue p ix sub with
  | some v => v
  | none => d.get (d.readKey p ix sub)

/-- The violation kind that a read meets, if any (R61). -/
def readKind (d : Device) (p : Port) (ix sub : Nat) : Option Nat := match d.accessKind p false ix sub with
  | some k => some k
  | none => if d.sspClosed p false ix sub then some kindState else none

/-- A read (R61): a violation is counted and returns zeros in the object's encoded size. -/
def readObject (p : Port) (ix sub : Nat) (d : Device) : Device × List Byte := match d.readKind p ix sub with
  | some k => (d.violate p ix sub k, List.replicate (objSize ix sub) 0)
  | none => (d, leBytes (objSize ix sub) (d.readValue p ix sub))

/-! ## Ranges (R60) -/

/-- The defined subindices of an index from `first` to `last`, or to its highest. -/
def rangeSubs (ix first last : Nat) : List Nat :=
  (List.range 256).filter fun sub =>
    decide (first ≤ sub) && decide (sub ≤ last) && (match objKind ix sub with
      | .undefined => false
      | _ => true)

/-- An index that is defined at all: it has a highest subindex (R56). -/
def indexDefined (ix : Nat) : Bool := match objKind ix 0 with
  | .undefined => false
  | _ => true

/-- The walk of a range read over at most `n` bytes. -/
def readWalk (p : Port) (ix : Nat) : List Nat → Nat → Device → Device × List Byte
  | [], _, d => (d, [])
  | sub :: l, n, d =>
    if n = 0 then (d, [])
    else
      let r := readObject p ix sub d
      let rest := readWalk p ix l (n - r.2.length) r.1
      (rest.1, r.2 ++ rest.2)

/-- `n` bytes of a range read: the values, the last cut where the bytes end, then zeros. An index that is not defined is one
violation and reads as zeros. -/
def readRange (p : Port) (ix first last n : Nat) (d : Device) : Device × List Byte :=
  if indexDefined ix = false then (d.violate p ix first kindUndefined, List.replicate n 0)
  else
    let r := readWalk p ix (rangeSubs ix first last) n d
    (r.1, (r.2 ++ List.replicate n 0).take n)

/-- The writes of a range write in order: of each object whose value the data hold whole. -/
def writeWalk (ix : Nat) : List Nat → List Byte → List (Nat × Nat × List Byte)
  | [], _ => []
  | sub :: l, data =>
    let n := objSize ix sub
    if data.length < n ∨ n = 0 then [] else (ix, sub, data.take n) :: writeWalk ix l (data.drop n)

/-- The object writes of a range write; one undefined access where the index is not defined. -/
def rangeWrites (ix first last : Nat) (data : List Byte) : List (Nat × Nat × List Byte) :=
  if indexDefined ix = false then [(ix, first, [])] else writeWalk ix (rangeSubs ix first last) data

/-! ## What a block forbids (R61 kind 4) -/

/-- The quad whose condition input map an object of index 0x1580 + g holds. -/
def mapQuad (ix sub : Nat) : Nat := (ix - 0x1580) * 16 + sub - 1

def quadSiteBusy (d : Device) (q : Nat) : Bool := match d.siteOf q with
  | some s => d.siteBusy s
  | none => false

/-- A write that the present state, owner, mode or count of the object's block forbids. -/
def blockForbids (d : Device) (p : Port) (ix sub v : Nat) : Bool :=
  if ix = 0x1000 then sub == 0x13 && d.responseForbidden p
  else if ix = 0x1200 then sub == 0x0B && restartForbidden p d
  else if 0x1580 ≤ ix ∧ ix < 0x1588 then d.quadSiteBusy (mapQuad ix sub)
  else if ix = 0x1701 then
    let q := d.selected p
    firmwareHeld q || (sub == 0x20 && d.grantForbidden q) || (sub == 0x21 && d.dequeueForbidden q v) ||
      (sub == 0x22 && d.enqueueForbidden q v)
  else if 0x1830 ≤ ix ∧ ix < 0x1832 then sub == 0x0F && d.frameForbidden (ix - 0x1830)
  else if 0x2200 ≤ ix ∧ ix < 0x2280 then
    (sub == 0x68 || sub == 0x69 || sub == 0x6B || (decide (0xE0 ≤ sub) && decide (sub ≤ 0xEF))) && d.quadSiteBusy (ix - 0x2200)
  else false

/-! ## Ring objects -/

/-- A ring position is given: there is no earlier cyclic frame to acknowledge (R46). -/
def positionOp (v : Nat) (d : Device) : Device :=
  { d with ring := { d.ring with prevCyclic := .none } }.w 0x1100 0x04 v

/-- The requested ring state (R400): 1 and 2 take effect from any state after ring join, as the write is applied, so that later
writes of the same frame see the new state (DESIGN CHOICE, log entry 117); 3 is held. -/
def requestStateOp (v : Nat) (d : Device) : Device :=
  let d1 := d.w 0x1100 0x06 v
  if v ≤ 2 ∧ d.joined = true then setRingState v d1 else d1

/-- The ring becomes OPERATIONAL when a request of 3 stands and the time is locked (R400). -/
def operationalOp (d : Device) : Device :=
  if d.joined = true ∧ d.o 0x1100 0x06 = 3 ∧ d.o 0x1100 0x0E = 1 then setRingState ringOperationalState d else d

/-- A bulk load is announced (R53). -/
def loadTotalOp (v : Nat) (d : Device) : Device :=
  ((d.w 0x1100 0x1B v).w 0x1100 0x1D 0).w 0x1100 0x1C 0

/-! ## Writing -/

/-- A configured best-effort weight (R256, R263): a subchannel on which it is halved keeps the smaller. -/
def weightOp (r v : Nat) (d : Device) : Device :=
  let was := d.o 0x1600 (0x18 + r)
  each (fun j e => setWeight j r (if e.curWeight j r < was then min (e.curWeight j r) v else v) e) (List.range 32)
    (d.w 0x1600 (0x18 + r) v)

/-- A line-match line is set (R329): it counts from the next line on, also where the present frame has had its match. -/
def lineMatchSet (h v : Nat) (d : Device) : Device :=
  (d.setHead h { d.headOf h with matchFrom := d.cycle, matched := false }).w (0x1810 + h) 0x23 v

/-- A queue's sticky level flag is cleared (R287). -/
def clearLevel (q : Nat) (d : Device) : Device := settleSummary q (d.qw q 0x1E 0)

/-- The effect of a write to the identity, ring, boot and serial objects, if it is not the plain one. -/
def effectLow (p : Port) (ix sub v : Nat) : Option (Device → Device) :=
  if ix = 0x1000 then
    (if sub = 0x11 then some (roleRequestOp p v)
     else if sub = 0x13 then some (roleResponseOp p v)
     else if sub = 0x20 then some (siteStartOp (v % 2 ^ 128) (v / 2 ^ 128))
     else none)
  else if ix = 0x1100 then
    (if sub = 0x04 then some (positionOp v)
     else if sub = 0x06 then some (requestStateOp v)
     else if sub = 0x1B then some (loadTotalOp v)
     else none)
  else if ix = 0x1200 then some restartBoot
  else if ix = 0x1210 then some (burnOp v)
  else if ix = 0x1220 then some (primacyOp v)
  else if ix = 0x1240 ∧ sub = 0x03 then some hostFrameOp
  else none

/-- Power, heat, calibration, events and the snapshot. -/
def effectMid (p : Port) (ix sub v : Nat) : Option (Device → Device) :=
  if ix = 0x1300 then
    (if sub = 0x0F then some thermalCommitOp
     else if sub = 0x14 then some (fun d => reArmOp (Config.selfTestFailed d.freeCtr).toNat d.fresh)
     else none)
  else if 0x1320 ≤ ix ∧ ix < 0x1328 then some (toleranceOp (ix - 0x1320) v)
  else if ix = 0x1400 then
    (if sub = 0x05 then some (calRequestOp v) else some (fun d => settleCals (d.w ix sub v)))
  else if ix = 0x1500 then
    (if sub = 0x03 then some clearFault
     else if sub = 0x06 then some askStrobe
     else if sub = 0x07 then some (pulseNext v)
     else if sub = 0x20 then some (fun d => registerSnap 1 0xFFFF d.cycle d)
     else if sub = 0x21 then some rearmAll
     else none)
  else if ix = 0x1501 then some (rearmSelected p)
  else none

/-- Memory, queues, the ledger and the raster. -/
def effectMemory (p : Port) (ix sub v : Nat) : Option (Device → Device) :=
  if ix = 0x1600 then
    (if sub = 0x0F then some memoryCommitOp
     else if sub = 0x10 then some (if v = 1 then trainOp else if v = 2 then retrainOp else releaseOp)
     else if 0x18 ≤ sub ∧ sub ≤ 0x1F then some (weightOp (sub - 0x18) v)
     else none)
  else if ix = 0x1701 then
    (if sub = 0x0F then some (fun d => queueCommitOp (d.selected p) d)
     else if sub = 0x1E then some (fun d => clearLevel (d.selected p) d)
     else if sub = 0x20 then some (fun d => creditGrantOp (d.selected p) v d)
     else if sub = 0x21 then some (fun d => dequeueOp (d.selected p) v d)
     else if sub = 0x22 then some (fun d => enqueueOp (d.selected p) v d)
     else if sub = 0x23 then some (fun d => hostFlush (d.selected p) d)
     else none)
  else if ix = 0x1780 then
    (if sub = 0x02 then some clearMemoryError else some ledgerResumeOp)
  else if ix = 0x1810 ∨ ix = 0x1811 then
    (if sub = 0x1F then some (headSetupOp (ix - 0x1810))
     else if sub = 0x20 then some (if v = 1 then headEnableOp (ix - 0x1810) else stopHead (ix - 0x1810))
     else if sub = 0x23 then some (lineMatchSet (ix - 0x1810) v)
     else none)
  else if (ix = 0x1830 ∨ ix = 0x1831) ∧ sub = 0x0F then some (frameCommitOp (ix - 0x1830))
  else none

/-- Channels, quads, clusters, tiles, DPS channels and sites. -/
def effectUnit (ix sub v : Nat) : Option (Device → Device) :=
  if 0x2000 ≤ ix ∧ ix < 0x2200 then
    (if sub = 0x16 then some (selfCheckOp (ix - 0x2000) v)
     else if sub = 0x2A then some (if v = 1 then armTmu (ix - 0x2000) else disarmTmu (ix - 0x2000))
     else none)
  else if 0x2200 ≤ ix ∧ ix < 0x2280 then
    (if sub = 0x16 then some (levelCommitOp (ix - 0x2200))
     else if sub = 0x1B then some (timingCommitOp (ix - 0x2200))
     else none)
  else if 0x2280 ≤ ix ∧ ix < 0x22A0 then
    (if sub = 0x5E then some (acqCommitOp (ix - 0x2280))
     else if sub = 0x61 then some (if v = 1 then armAcq (ix - 0x2280) else disarmAcq (ix - 0x2280))
     else if sub = 0x62 then some (sourceTrigger 0 0 (ix - 0x2280))
     else none)
  else if 0x22A0 ≤ ix ∧ ix < 0x22A8 ∧ sub = 0x31 then some (gangCommitOp (ix - 0x22A0))
  else if 0x2300 ≤ ix ∧ ix < 0x2340 then
    (if sub = 0x18 then some (dpsCommitOp (ix - 0x2300))
     else if sub = 0x28 then some (dpsSelfCheckOp (ix - 0x2300) v)
     else if sub = 0x2C then
       some (fun d => d.setDps (ix - 0x2300) { d.dpsOf (ix - 0x2300) with clearAsked := true })
     else none)
  else if 0x2400 ≤ ix ∧ ix < 0x2480 then
    (if sub = 0x0F then some (siteCommitOp (ix - 0x2400))
     else if sub = 0x31 then some (abortOp (ix - 0x2400))
     else if sub = 0x3B then some (rearmFirst (ix - 0x2400))
     else none)
  else none

/-- A write with no effect but its value: the object, or the staging copy (R59), as R5 keeps it. -/
def plainWrite (p : Port) (ix sub v : Nat) (d : Device) : Device := d.put (d.readKey p ix sub) (heldValue ix sub v)

/-- The effect of an allowed write. -/
def writeEffect (p : Port) (ix sub v : Nat) : Device → Device :=
  match (if ix < 0x1300 then effectLow p ix sub v
    else if ix < 0x1600 then effectMid p ix sub v
    else if ix < 0x2000 then effectMemory p ix sub v
    else effectUnit ix sub v) with
  | some f => f
  | none => plainWrite p ix sub v

/-- A write of a value of the object's encoded size: the checks of kinds 0 to 4, then the effect (R61). -/
def valueWrite (p : Port) (ix sub v : Nat) (d : Device) : Device :=
  hostWrite d p ix sub v (d.blockForbids p ix sub v) (writeEffect p ix sub v)

/-- A write of data to an object (R56). -/
def objectWriteOp (p : Port) (ix sub : Nat) (data : List Byte) (d : Device) : Device :=
  bytesWrite p ix sub data (d.blockForbids p ix sub (ofLE data)) (writeEffect p ix sub) d

end Device

open Device

/-- OBJECT_WRITE (R61): to any object, the commit and other command objects among them. -/
def execObjectWrite (p : Port) (ix : BitVec 16) (sub : Byte) (data : List Byte) (s : State) : Host.Outcome State Fault Refusal :=
  nextDev s (objectWriteOp p ix.toNat sub.toNat data s.dev)

/-- REQUESTED_RING_STATE (R400). -/
def execRequestedRingState (p : Port) (v : Byte) (s : State) : Host.Outcome State Fault Refusal :=
  nextDev s (s.dev.hostWrite p 0x1100 0x06 v.toNat false (requestStateOp v.toNat))

/-- RING_OPERATIONAL (R400). -/
def execRingOperational (s : State) : Host.Outcome State Fault Refusal := nextDev s (operationalOp s.dev)

/-- BULK_LOAD_TOTAL (R53). -/
def execBulkLoadTotal (p : Port) (v : BitVec 64) (s : State) : Host.Outcome State Fault Refusal :=
  nextDev s (s.dev.hostWrite p 0x1100 0x1B v.toNat false (loadTotalOp v.toNat))

end Sys2Proof.Machine
end

