-- ==== Sys2Proof/Machine/Bulk.lean ====
section
/-!
DEFINITION. Bulk transfers (R51 to R54): targets, the ingress buffers, the completion of a bulk write, and bulk reads.
-/
namespace Sys2Proof.Machine

/-- A bulk target (02, Bulk transfers): its space, tiles or cluster, and address. -/
structure Target where
  space : Nat
  unit : Nat
  addr : Nat
deriving DecidableEq, Repr

/-- A target whose space is in the table and whose unnamed bits are 0 (R51). -/
def bulkTarget (t : Nat) : Option Target :=
  match fld t 7 1 with
  | 0 => if fld t 6 1 = 0 ∧ fld t 5 1 = 0 ∧ bit t 39 = false then some ⟨0, 0, bitf t 0 39⟩ else none
  | 1 => if fld t 6 1 = 0 ∧ bitf t 36 4 = 0 then some ⟨1, fld t 5 1, bitf t 0 36⟩ else none
  | 2 => if bitf t 45 11 = 0 ∧ bitf t 20 20 = 0 then some ⟨2, bitf t 40 5, bitf t 0 20⟩ else none
  | _ => none

namespace Device

/-! ## Tiles and targets (R51) -/

/-- The bytes of a global range lie in the populated SDRAM of tile `t` as far as they lie in the tile. -/
def rangeIn (d : Device) (a n t : Nat) : Bool :=
  decide (t < 8) && decide (min (a + n) (tileBase (t + 1)) ≤ tileBase t + d.tileCapacity t)

/-- `n` bytes at a target lie in populated memory that takes accesses (R51). -/
def targetOk (d : Device) (x : Target) (n : Nat) : Bool :=
  if x.space = 0 then
    (rangeTiles x.addr n).all fun t => d.rangeIn x.addr n t && d.tileTakes t
  else if x.space = 1 then (tilesOf x.unit).all fun t => d.inTile t x.addr n && d.tileTakes t
  else decide (x.addr + n ≤ 2 ^ 20)

/-! ## Bulk writes (R51 to R53) -/

def ingressLimit : Nat := 262144

/-- A bulk write that moves nothing: of length 0, or to no tile (R51). -/
def bulkMovesNothing (b : Bulk) : Bool := b.data.isEmpty || (b.space == 1 && b.tiles == 0)

/-- The bytes that wait for link `l`: in its ingress buffer, and held by the frame that passes. -/
def ingressBytes (d : Device) (l : Link) : Nat :=
  (((d.ring.ingress ++ (d.ring.queued.map Prod.snd).filter fun b => b.space == 2).filter fun b => b.link == l).map fun b =>
    b.data.length).sum +
  (d.ring.held.map fun w => match w with
    | .bulk b => if b.link = l ∧ bulkMovesNothing b = false then b.data.length else 0
    | .obj _ _ _ => 0).sum

/-- The bytes of bulk write number `n` enter the write queues, as traffic of their ring port's requester (R256, R258). -/
def storeBulk (n : Nat) (b : Bulk) (d : Device) : Device :=
  let r := match b.link with
    | .up => 0
    | .down => 1
  if b.space = 0 then bestEffortStore r n b.addr b.data d
  else if b.space = 1 then each (fun t e => bestEffortStore r n (tileBase t + b.addr) b.data e) (tilesOf b.tiles) d
  else d

/-- The bursts of a bulk write to SDRAM, as runs of global burst numbers: the first and the last. -/
def burstRuns (b : Bulk) : List (Nat × Nat) :=
  let run (a : Nat) : Nat × Nat := (a / 64, (a + b.data.length - 1) / 64)
  if b.space = 0 then [run b.addr] else if b.space = 1 then (tilesOf b.tiles).map fun t => run (tileBase t + b.addr) else []

/-- Two bulk writes touch one burst. -/
def shareBurst (b c : Bulk) : Bool :=
  (burstRuns b).any fun x => (burstRuns c).any fun y => decide (x.1 ≤ y.2) && decide (y.1 ≤ x.2)

/-- The first of a list of bulk writes that no lease holds, whose memory does not make it wait, and that shares no burst with one
before it (R325); `before` are those already passed over. -/
def firstFree (d : Device) : List Bulk → List Bulk → Option Bulk
  | _, [] => none
  | before, b :: l =>
    if !b.stalled && (bulkTiles b).all (fun t => !(d.tileWaits t)) && !(before.any (shareBurst b)) then some b
    else d.firstFree (b :: before) l

/-- The bulk write that goes next: the oldest that nothing holds back. -/
def nextBulk (d : Device) : Option Bulk := d.firstFree [] d.ring.ingress

/-- A bulk write leaves its ingress buffer: into the write queues (R258), or it is discarded because its memory is no longer READY
(R51); a tile-replicated one is discarded whole where one of its tiles is not (DESIGN CHOICE, log entry 97). One to cluster SRAM
waits for its write. -/
def admitBulk (b : Bulk) (d : Device) : Device :=
  let n := d.ring.bulkTag + 1
  let d1 := { d with ring := { d.ring with ingress := d.ring.ingress.erase b, bulkTag := n } }
  if ((bulkTiles b).all d1.tileTakes) = false then bulkDropped b d1
  else
    let d2 := storeBulk n b d1
    { d2 with ring := { d2.ring with queued := d2.ring.queued ++ [(n, b)] } }

/-- At most `n` of the bulk writes that nothing holds back leave the ingress buffers, the oldest first. -/
def admitBulks : Nat → Device → Device
  | 0, d => d
  | n + 1, d => match d.nextBulk with
    | none => d
    | some b => admitBulks n (admitBulk b d)

/-- All of them do. -/
def settleIngress (d : Device) : Device := admitBulks d.ring.ingress.length d

/-- A bulk write of a good frame: one that moves nothing completes at once (R51), else it enters the ingress buffer, where one
that a lease holds stays (R325), and one that nothing holds back goes on. Whether a lease holds it is decided here: one that is
issued while the write waits in the buffer does not (DESIGN CHOICE, log entry 119). -/
def acceptBulk (b : Bulk) (d : Device) : Device :=
  if bulkMovesNothing b then countBulk b.link d
  else
    let held := d.leaseHolds b
    let d1 := { d with ring := { d.ring with ingress := d.ring.ingress ++ [{ b with stalled := held }] } }
    let d2 := if held then d1.addWrap 0x1870 0x03 8 1 else d1
    settleIngress (each touchTile (bulkTiles b) (settleHeld d2))

/-- The queued parts of bulk write number `n` on subchannel `j` leave for the device. -/
def drainPart (n j : Nat) (d : Device) : Device :=
  each (fun _ e => writeLeaves j (fun w => w.bulk == n) e) (List.range ((d.subOf j).writes.filter fun w => w.bulk == n).length) d

/-- The last burst of the oldest bulk write whose memory is READY leaves the write queue, with what is still queued of it (R53,
R259), or the write to cluster SRAM is done. -/
def bulkCompleteOp (d0 : Device) : Device :=
  let d := settleIngress d0
  match d.ring.queued.find? fun p => (bulkTiles p.2).all fun t => !(d.tileWaits t) with
  | none => d
  | some (n, b) =>
    if b.space = 2 then
      bulkStored b (sramStore (sramKey b.tiles b.addr) b.data
        { d with ring := { d.ring with queued := d.ring.queued.erase (n, b) } })
    else each (drainPart n) (List.range 32) d

/-! ## Bulk reads (R54) -/

def readIdle : Nat := 0
def readFetching : Nat := 1
def readReady : Nat := 2
def readError : Nat := 3

/-- A bulk read request replaces the one before; one of length 0 completes at once. -/
def readRequest (x : Target) (n : Nat) (d : Device) : Device :=
  let base := if x.space = 2 then sramKey x.unit x.addr else x.addr
  let d1 := { d with ring := { d.ring with
    readSpace := x.space, readBase := base, readLen := n, readData := [], readPoison := [] } }
  if n = 0 then d1.w 0x1100 0x15 readReady
  else
    let d2 := d1.w 0x1100 0x15 readFetching
    if x.space = 0 then each touchTile (rangeTiles x.addr n) d2 else d2

/-- The enabled queues. -/
def enabledQueues (d : Device) : List Nat :=
  d.objs.filterMap fun p =>
    if queueBase ≤ p.1 ∧ p.1 < pendBase ∧ p.1 % 256 = 0x14 ∧ p.2 ≠ 0 then some ((p.1 - queueBase) / 256) else none

/-- The resident pointers of queue `q` whose entry lies in the `n` bytes from `a` of the same memory. -/
def entriesIn (d : Device) (q space a n : Nat) : List Nat :=
  if (d.queuePlacement q = 0) = (space = 0) then
    ((List.range (d.resident q)).map fun i => d.qo q 0x11 + i).filter fun p =>
      decide (d.entryAt q p < a + n) && decide (a < d.entryAt q p + entrySize (d.queuePlacement q))
  else []

/-- A poisoned entry is delivered: counted the first time (R286). -/
def deliverPoison (q p : Nat) (d : Device) : Device :=
  if d.mem.poisonSeen.contains (q, p) then d
  else { d with mem := { d.mem with poisonSeen := d.mem.poisonSeen ++ [(q, p)] } }.qadd q 0x1C 1

/-- The poisoned entries of the enabled queues in a poisoned unit that a read delivers. -/
def deliverUnit (space a n : Nat) (d : Device) : Device :=
  each (fun q e => each (deliverPoison q) (d.entriesIn q space a n) e) d.enabledQueues d

/-- Words of cluster SRAM fail parity from now on, until a write covers them whole (R286). -/
def upsetSram (words : List Nat) (d : Device) : Device :=
  { d with mem := { d.mem with sramPoison := (words.filter fun x => !(d.mem.sramPoison.contains x)) ++ d.mem.sramPoison } }

/-- The fetch completes (R54), or its memory is no longer there and the status is ERROR (DESIGN CHOICE, log entry 97). Poisoned
bursts and words are marked (R260, R286). -/
def fetchDoneOp (d : Device) : Device :=
  let r := d.ring
  if d.o 0x1100 0x15 ≠ readFetching then d
  else if r.readSpace = 2 then
    let bad := d.sramBadWords r.readBase r.readLen
    let d1 := { d with ring := { r with readData := d.sramRead r.readBase r.readLen, readPoison := bad } }
    (each (fun x e => deliverUnit 2 (4 * x) 4 e) bad (d1.addWrap 0x1700 0x04 8 bad.length)).w 0x1100 0x15 readReady
  else if (rangeTiles r.readBase r.readLen).any d.tileWaits then d
  else if (rangeTiles r.readBase r.readLen).all d.tileTakes = false then d.w 0x1100 0x15 readError
  else
    let bursts := (List.range ((r.readBase % 64 + r.readLen + 63) / 64)).map fun i => r.readBase / 64 + i
    let bad := bursts.filter d.bestEffortPoison
    let d0 := each touchTile (rangeTiles r.readBase r.readLen) d
    let d1 := { d0 with ring := { r with readData := d.bestEffortRead r.readBase r.readLen, readPoison := bad } }
    (each (fun x e => deliverUnit 0 (64 * x) 64 e) bad d1).w 0x1100 0x15 readReady

/-- The range lies within the requested one, and the buffer is READY. -/
def readCovers (d : Device) (x : Target) (n : Nat) : Bool :=
  let base := if x.space = 2 then sramKey x.unit x.addr else x.addr
  d.o 0x1100 0x15 == readReady && x.space == d.ring.readSpace && decide (d.ring.readBase ≤ base) &&
  decide (base + n ≤ d.ring.readBase + d.ring.readLen)

/-- The data of a range in the buffer. -/
def readPart (d : Device) (x : Target) (n : Nat) : List Byte :=
  let base := if x.space = 2 then sramKey x.unit x.addr else x.addr
  (d.ring.readData.drop (base - d.ring.readBase)).take n

/-- Some byte of the range came from poisoned data. -/
def readPoisoned (d : Device) (x : Target) (n : Nat) : Bool :=
  let base := if x.space = 2 then sramKey x.unit x.addr else x.addr
  let u := if x.space = 2 then 4 else 64
  d.ring.readPoison.any fun k => decide (u * k < base + n) && decide (base < u * k + u)

end Device

open Device

/-- BULK_WRITE_COMPLETE (R51, R53, R259). -/
def execBulkWriteComplete (s : State) : Host.Outcome State Fault Refusal := nextDev s (bulkCompleteOp s.dev)

/-- BULK_READ_FETCH_DONE (R54). `upset`: words of cluster SRAM whose parity has failed by now (R286). -/
def execBulkReadFetchDone (upset : List SramWord) (s : State) : Host.Outcome State Fault Refusal :=
  nextDev s (fetchDoneOp (upsetSram ((upset.map Fin.val).dedup) s.dev))

end Sys2Proof.Machine
end

