-- ==== Sys2Proof/Machine/Startup.lean ====
section
/-!
DEFINITION. Boot stage 4 (R149, R150, R152, R160, R330, R337) and the ring links, the first of which ends stage 5 (R44, R57,
R330).
-/
namespace Sys2Proof.Machine
namespace Device

/-! ## Microcode (R149, R150, R152) -/

/-- The broadcast at quad `q`: the store takes the words, and a CRC-32 over them that is not the image's reloads it once; a second
mismatch fences the quad. -/
def loadStore (faults : List LoadFault) (words : List (BitVec 96)) (whole crc q : Nat) (d : Device) : Device :=
  let first := storeLoad faults false q words whole
  let reload := first.2 != crc
  let x := if reload then storeLoad faults true q words whole else first
  let d1 := (takeStore q x.1 d).addWrap (quadIx q) 0x70 2 (if reload then 2 else 1)
  let d2 := d1.w (quadIx q) 0x6F x.2
  if x.2 ≠ crc then ((d2.w (quadIx q) 0x60 6).wbit 0x1260 (7 + q / 64) (q % 64) true).raise 16
  else (d2.w (quadIx q) 0x60 (d2.memberState q)).addWrap 0x1260 0x06 1 1

/-- The flow-interpreter code goes to the 32 CFEs (R330). -/
def loadCfeCode (bytes : List Byte) (d : Device) : Device :=
  { d with boot := { d.boot with cfeCode := (List.range 32).foldl (fun m c => Cells.write [] c bytes m) d.boot.cfeCode } }

/-- The microcode version record (R152). -/
def versionRecord (im : Image) (d : Device) : Device :=
  let d1 := ((d.w 0x1260 0x01 im.major).w 0x1260 0x02 im.minor).w 0x1260 0x03 im.build
  let d2 := (d1.w 0x1260 0x04 im.isa).w 0x1260 0x05 im.storeCrc
  ((d2.w 0x1260 0x06 0).w 0x1260 0x07 0).w 0x1260 0x08 0

/-! ## The dictionary and the defaults (R160, R337) -/

def imageDictionary (bytes : List Byte) (q : Nat) (d : Device) : Device :=
  each (fun k e => e.w (quadIx q) (0xE0 + k) (ofLE ((bytes.drop (192 * k)).take 192))) (List.range 16) d

/-- One record of the DEFAULTS section: a write in role SERVICE; one that would be a violation, or whose value has not the
object's size, changes nothing. -/
def applyDefault (r : DefaultRec) (d : Device) : Device :=
  let ix := r.ix
  let sub := r.sub
  let v := ofLE r.value
  match objKind ix sub with
  | .row row =>
    if row.access = .ro ∨ r.value.length ≠ row.size ∨ d.valueOk ix sub v = false ∨ d.blockForbids .ring ix sub v = true then d
    else writeEffect .ring ix sub v d
  | .highest => d
  | .active _ => d
  | .undefined => d

def applyDefaults : List DefaultRec → Device → Device
  | [], d => d
  | r :: l, d => applyDefaults l (applyDefault r d)

/-- Stage 4 ends (R150, R330). -/
def microcodeOp (faults : List LoadFault) (d : Device) : Device :=
  match d.boot.image with
  | none => d
  | some im =>
    if d.o 0x1200 0x01 ≠ 4 then d
    else
      let d1 := each (loadStore faults im.microcode (storeCrc im.microcode) im.storeCrc) (List.range 128)
        (versionRecord im d)
      let d2 := each (imageDictionary im.dictionary) (List.range 128) (loadCfeCode im.cfeCode d1)
      let d3 := applyDefaults im.defaults d2
      ringJoin (settleWait ((d3.w 0x1200 0x01 5).w 0x1200 0x02 90))

/-! ## Links (R44, R57) -/

def linkBit : Link → Nat
  | .up => 0
  | .down => 1

/-- The port status: the links and the turnaround, active while one link of the two is up. -/
def portStatus (links : Nat) : Nat := links % 4 + if links % 4 = 1 ∨ links % 4 = 2 then 4 else 0

def setLinks (links : Nat) (d : Device) : Device :=
  if portStatus links = d.o 0x1100 0x0A then d else (d.w 0x1100 0x0A (portStatus links)).raise 19

/-- The port of a link that comes up takes the port mode that 0x1100.1A holds (R28). -/
def takePortMode (l : Link) (d : Device) : Device :=
  let m := d.o 0x1100 0x1A
  { d with ring := { d.ring with portMode := match l with
    | .up => (m, d.ring.portMode.2)
    | .down => (d.ring.portMode.1, m) } }

/-- A link that was down comes up: it joins the ring in the port mode that then stands, and the ring port returns to OPERATOR
(R28, R57). -/
def linkUpOp (l : Link) (d : Device) : Device :=
  let was := d.o 0x1100 0x0A % 4
  if bit was (linkBit l) then d
  else
    let d1 := takePortMode l (setLinks (setBit was (linkBit l) true) d)
    ringJoin (if d1.joined = true then d1.setRole .ring 1 else d1)

/-- A link goes down. -/
def linkDownOp (l : Link) (d : Device) : Device := setLinks (setBit (d.o 0x1100 0x0A % 4) (linkBit l) false) d

end Device

open Device

/-- MICROCODE_BROADCAST_DONE (R150). -/
def execMicrocodeBroadcastDone (faults : List LoadFault) (s : State) : Host.Outcome State Fault Refusal :=
  nextDev s (microcodeOp faults s.dev)

/-- LINK_UP (R44). -/
def execLinkUp (l : Link) (s : State) : Host.Outcome State Fault Refusal := nextDev s (linkUpOp l s.dev)

/-- LINK_DOWN (R44). -/
def execLinkDown (l : Link) (s : State) : Host.Outcome State Fault Refusal := nextDev s (linkDownOp l s.dev)

end Sys2Proof.Machine
end

