-- ==== Sys2Proof/Machine/Ring.lean ====
section
/-!
DEFINITION. The Lemile ring (chapter 02): datagrams as they pass, held writes, the cyclic frame and ring time, event
collection, and whole frames.
-/
namespace Sys2Proof.Machine

/-! ## Datagrams (R33 to R36) -/

def dgLength (x : Datagram) : Nat := x.len.toNat % 2 ^ 14
def dgMode (x : Datagram) : Nat := x.mode.toNat % 4
def dgMore (x : Datagram) : Bool := x.flags.toNat % 2 == 1
def dgTarget (x : Datagram) (lo n : Nat) : Nat := bitf x.target.toNat lo n

/-- The reserved bits of the mode, flags and length fields are 0 (R33). -/
def dgReservedOk (x : Datagram) : Bool :=
  decide (x.mode.toNat < 4) && decide (x.flags.toNat < 4) && decide (x.len.toNat < 2 ^ 14)

/-- The datagram's data are all there (R33). -/
def dgWhole (x : Datagram) : Bool := decide (dgLength x ≤ x.data.length)

def dgData (x : Datagram) : List Byte := x.data.take (dgLength x)

def typeDrd : Nat := 0x01
def typeDwr : Nat := 0x02
def typeDrr : Nat := 0x03
def typeDrw : Nat := 0x04
def typeBwr : Nat := 0x10
def typeBrq : Nat := 0x11
def typeBrd : Nat := 0x12
def typeEvt : Nat := 0x20
def typeSync : Nat := 0x30
def typeTrd : Nat := 0x31

def knownType (t : Nat) : Bool := [0x01, 0x02, 0x03, 0x04, 0x10, 0x11, 0x12, 0x20, 0x30, 0x31].contains t

/-- The mode and the length that the table of R34 gives the type; a SYNC also its place (R45). -/
def formOk (x : Datagram) (first : Bool) : Bool :=
  let t := x.typ.toNat
  let m := dgMode x
  let n := dgLength x
  if 9174 < n then false
  else if t ≤ 0x04 then true
  else if t = 0x10 then decide (n ≤ 8192)
  else if t = 0x11 then decide (m ≤ 1) && n == 4
  else if t = 0x12 then decide (m ≤ 1) && decide (n ≤ 8192)
  else if t = 0x20 then m == 2 && n % 16 == 0
  else if t = 0x30 then m == 2 && n == 52 && first
  else decide (m ≤ 1) && n == 10

/-- What a datagram that this device serves comes to: the device after it, how much the working counter rises (none where
it does not act), whether it counts as malformed, its data, and the POISON bit. -/
structure Reply where
  dev : Device
  acted : Option Nat
  malformed : Bool
  data : List Byte
  poison : Bool

/-- The device acts and `n` is added to the working counter. -/
def Reply.act (d : Device) (n : Nat) (data : List Byte) : Reply := ⟨d, some n, false, data, false⟩
/-- The device does not act. -/
def Reply.pass (d : Device) (x : Datagram) : Reply := ⟨d, none, false, dgData x, false⟩
/-- A bad target or size (R34, R56). -/
def Reply.bad (d : Device) (x : Datagram) : Reply := ⟨d, none, true, dgData x, false⟩

/-- Data returned by a read: in position and node mode the value, in broadcast and group mode ORed into the data (R35). -/
def returned (x : Datagram) (bs : List Byte) : List Byte :=
  let v := (bs ++ List.replicate (dgLength x) 0).take (dgLength x)
  if dgMode x < 2 then v else List.zipWith (fun a b => a ||| b) (dgData x) v

namespace Device

/-- The datagram addresses this device (R36). -/
def addressed (d : Device) (x : Datagram) : Bool :=
  let a := x.addr.toNat
  match dgMode x with
  | 0 => a == d.ring.hop
  | 1 => a == d.o 0x1100 0x02 && a != 0
  | 2 => true
  | _ => decide (a < 32) && bit (d.o 0x1100 0x03) a

/-- Before ring join only these are processed (R42). -/
def servedNow (d : Device) (x : Datagram) : Bool :=
  let t := x.typ.toNat
  d.joined || t == typeSync || t == typeTrd ||
  ((t == typeDrd || t == typeDrr) && (dgTarget x 0 16 == 0x1000 || dgTarget x 0 16 == 0x1200))

/-! ## The dictionary on the ring (R35, R37, R56, R60) -/

def readDatagram (x : Datagram) (d : Device) : Reply :=
  if dgTarget x 24 40 ≠ 0 then .bad d x
  else
    let r := readObject .ring (dgTarget x 0 16) (dgTarget x 16 8) d
    .act r.1 1 (returned x r.2)

def readRangeDatagram (x : Datagram) (d : Device) : Reply :=
  if dgTarget x 32 32 ≠ 0 ∨ dgTarget x 24 8 < dgTarget x 16 8 then .bad d x
  else
    let r := readRange .ring (dgTarget x 0 16) (dgTarget x 16 8) (dgTarget x 24 8) (dgLength x) d
    .act r.1 1 (returned x r.2)

/-- A write is held until the FCS has been checked (R37); a violation of kinds 0 to 2 is counted as it passes. -/
def holdWrite (ix sub : Nat) (data : List Byte) (d : Device) : Device := match d.accessKind .ring true ix sub with
  | some k => d.violate .ring ix sub k
  | none => { d with ring := { d.ring with held := d.ring.held ++ [.obj ix sub (ofLE data)] } }

def writeDatagram (x : Datagram) (d : Device) : Reply :=
  let ix := dgTarget x 0 16
  let sub := dgTarget x 16 8
  if dgTarget x 24 40 ≠ 0 then .bad d x
  else if (d.accessKind .ring true ix sub).isNone ∧ dgLength x ≠ objSize ix sub then .bad d x
  else .act (holdWrite ix sub (dgData x) d) 1 (dgData x)

def holdWrites : List (Nat × Nat × List Byte) → Device → Device
  | [], d => d
  | (ix, sub, data) :: l, d => holdWrites l (holdWrite ix sub data d)

def writeRangeDatagram (x : Datagram) (d : Device) : Reply :=
  if dgTarget x 32 32 ≠ 0 ∨ dgTarget x 24 8 < dgTarget x 16 8 then .bad d x
  else .act (holdWrites (rangeWrites (dgTarget x 0 16) (dgTarget x 16 8) (dgTarget x 24 8) (dgData x)) d) 1 (dgData x)

/-! ## Bulk datagrams (R51, R54) -/

/-- A bulk write: malformed, whatever the role (DESIGN CHOICE, log entry 97), a violation below OPERATOR, dropped for want of
room, or held for the ingress buffer. -/
def bulkWriteDatagram (l : Link) (x : Datagram) (d : Device) : Reply :=
  let n := dgLength x
  match bulkTarget x.target.toNat with
  | none => .bad d x
  | some t =>
    let b : Bulk := { link := l, space := t.space, tiles := t.unit, addr := t.addr, data := dgData x, stalled := false }
    if bulkMovesNothing b = false ∧ d.targetOk t n = false then .bad d x
    else if d.role .ring < 1 then .act (d.violate .ring 0 typeBwr kindRole) 1 (dgData x)
    else if bulkMovesNothing b = false ∧ ingressLimit < d.ingressBytes l + n then .pass (d.addSat 0x1100 0x12 4 1) x
    else .act { d with ring := { d.ring with held := d.ring.held ++ [.bulk b] } } 1 (dgData x)

def bulkRequestDatagram (x : Datagram) (d : Device) : Reply :=
  let n := ofLE (dgData x)
  match bulkTarget x.target.toNat with
  | none => .bad d x
  | some t =>
    if t.space = 1 ∨ 65536 < n ∨ (n ≠ 0 ∧ d.targetOk t n = false) then .bad d x
    else .act (readRequest t n d) 1 (dgData x)

def bulkReadDatagram (x : Datagram) (d : Device) : Reply :=
  let n := dgLength x
  match bulkTarget x.target.toNat with
  | none => .bad d x
  | some t =>
    if t.space = 1 then .bad d x
    else if n = 0 then .act d 1 []
    else if d.targetOk t n = false then .bad d x
    else if d.readCovers t n then ⟨d, some 1, false, returned x (d.readPart t n), d.readPoisoned t n⟩
    else ⟨d, none, false, List.replicate n 0, false⟩

/-! ## Event collection (R55, R297) -/

/-- The 16-byte entry of a report. -/
def reportBytes (d : Device) (r : Report) : List Byte :=
  leBytes 2 (d.o 0x1100 0x02) ++ [BitVec.ofNat 8 (d.o 0x1100 0x04), BitVec.ofNat 8 r.src] ++
  leBytes 2 (min r.count 65535) ++ [0, 0] ++ leBytes 8 r.first

/-- The coalescing interval since the source's last report has elapsed (R297). -/
def intervalOver (d : Device) (src : Nat) : Bool := match d.event.lastReport.find? fun p => p.1 == src with
  | none => true
  | some p => decide (p.2 + 1000 * fld (d.route src) 8 4 ≤ d.cycle)

/-- The report that goes next: of those whose interval is over the one with the oldest first occurrence. -/
def nextReport (d : Device) : Option Report :=
  (d.event.reports.filter fun r => d.intervalOver r.src).foldl (fun m r => match m with
    | none => some r
    | some b => if r.first < b.first then some r else some b) none

/-- A report has been written: it is delivered (R55, R297). -/
def reportWritten (r : Report) (d : Device) : Device :=
  let e := d.event
  setPendingFlag r.src 0 (addCount r.src 8 { d with event := { e with
    reports := e.reports.filter (fun y => y.src != r.src),
    lastReport := (e.lastReport.filter fun p => p.1 != r.src) ++ [(r.src, d.cycle)] } })

/-- The slots of an EVT filled in order: the device after it, the data, the entries written. -/
def fillSlots : Nat → List Byte → Device → Device × List Byte × Nat
  | 0, bs, d => (d, bs, 0)
  | n + 1, bs, d =>
    let slot := bs.take 16
    match (if slot.all (fun b => b == 0) then d.nextReport else none) with
    | some r =>
      let rest := fillSlots n (bs.drop 16) (reportWritten r d)
      (rest.1, d.reportBytes r ++ rest.2.1, rest.2.2 + 1)
    | none =>
      let rest := fillSlots n (bs.drop 16) d
      (rest.1, slot ++ rest.2.1, rest.2.2)

def eventDatagram (x : Datagram) (d : Device) : Reply :=
  if x.target ≠ 0 then .bad d x
  else
    let r := fillSlots (dgLength x / 16) (dgData x) d
    if r.2.2 = 0 then .pass d x else .act r.1 r.2.2 r.2.1

/-! ## Ring time (R49, R50) -/

/-- A delay of half ps in units of 2^-16 ns. -/
def halfPs (v : Int) : Int := v * 4096 / 125

/-- Upstream link delay plus half the asymmetry. -/
def linkTime (d : Device) : Int := halfPs (2 * (d.o 0x1100 0x09 : Int) + d.oi 0x1100 0x19)

def localTime (d : Device) : Nat := d.ringNs * 65536 + d.ringFrac

/-- The reference of R49 step 2. -/
def syncReference (d : Device) (data : List Byte) : Int :=
  ((ofLE ((data.drop 2).take 8) * 65536 + ofLE (data.take 2) : Nat) : Int) + sx 48 (ofLE ((data.drop 10).take 6)) + d.linkTime

/-- A step to the reference beyond 1 µs, else steering by at most 100 ns per ms (R49 step 3). -/
def adjustTime (offset : Int) (d : Device) : Device :=
  let estimate := Config.freqEstimate d.freeCtr
  if 65536000 < offset.natAbs then
    let now := ux 80 ((d.localTime : Int) - offset)
    { d with ringNs := now / 65536, ringFrac := now % 65536, steer := estimate }
  else { d with steer := estimate + max (-6553600) (min 6553600 (-offset)) }

/-- The offset object: a value outside I32 has none that the spec states. -/
def offsetValue (d : Device) (offset : Int) : Nat :=
  if -2147483648 ≤ offset ∧ offset ≤ 2147483647 then ux 32 offset else Config.unstated d.freeCtr % 2 ^ 32

/-- The time lock clears (R50): EV024. -/
def clearLock (d : Device) : Device := if d.o 0x1100 0x0E = 1 then (d.w 0x1100 0x0E 0).raise 24 else d

/-- The lock flag after a SYNC with an offset within ±2 ns, or beyond it (R50). -/
def settleLock (within : Bool) (d : Device) : Device :=
  let good := if within then d.ring.lockGood + 1 else 0
  let poor := if within then 0 else d.ring.lockBad + 1
  let d1 := { d with ring := { d.ring with lockGood := good, lockBad := poor } }
  if 8 ≤ good then d1.w 0x1100 0x0E 1 else if 8 ≤ poor then clearLock d1 else d1

/-- The acknowledge bit of position `p` in the bitmap. -/
def setAck (data : List Byte) (p : Nat) : List Byte :=
  let i := 20 + p / 8
  data.set i (data.getD i 0 ||| BitVec.ofNat 8 (2 ^ (p % 8)))

/-- The acknowledge of the previous cyclic frame (R46). -/
def acknowledge (data : List Byte) (d : Device) : Device × List Byte :=
  let p := d.o 0x1100 0x04
  if 253 < p then (d, data)
  else match d.ring.prevCyclic with
    | .met => (d, setAck data p)
    | .missed => (d.addSat 0x1100 0x16 4 1, data)
    | _ => (d, data)

/-- A SYNC (R46 to R50); `residence` in units of 2^-16 ns. -/
def syncDatagram (x : Datagram) (residence : Nat) (d : Device) : Reply :=
  if x.target ≠ 0 then .bad d x
  else
    let a := acknowledge (dgData x) d
    let d1 := { a.1 with ring := { a.1.ring with prevCyclic := .missed, lastCyclic := d.cycle, lastSync := d.cycle } }
    let offset := sx 80 (ux 80 ((d1.localTime : Int) - d1.syncReference (dgData x)))
    let d2 := ((settleLock (decide (offset.natAbs ≤ 131072)) (adjustTime offset d1)).w 0x1100 0x0D (d1.offsetValue offset)).w
      0x1100 0x0F (ofLE ((dgData x).drop 16 |>.take 4))
    let correction := ux 48 (sx 48 (ofLE ((dgData x).drop 10 |>.take 6)) + d.linkTime + residence)
    .act d2.fresh 1 (a.2.take 10 ++ leBytes 6 correction ++ a.2.drop 16)

def timeDatagram (x : Datagram) (d : Device) : Reply :=
  if x.target ≠ 0 then .bad d x
  else .act d 1 (returned x (leBytes 8 d.ringNs ++ leBytes 2 d.ringFrac))

/-! ## Held writes (R37, R38, R46) -/

def applyHeld : List HeldWrite → Device → Device
  | [], d => d
  | .obj ix sub v :: l, d => applyHeld l (valueWrite .ring ix sub v d)
  | .bulk b :: l, d => applyHeld l (acceptBulk b d)

/-- The frame's end is settled: of a cyclic frame, whether its writes met the 2 µs (R46); then they are applied in order. -/
def finishFrame (d : Device) : Device :=
  let r := d.ring
  let met := r.held.isEmpty || decide (d.cycle ≤ r.frameEnd + 2000)
  let ack := if r.cyclic && r.verdict != some false then (if met then PrevCyclic.met else .missed) else r.prevCyclic
  applyHeld r.held { d with ring := { r with
    held := [], verdict := none, cyclic := false, stopped := false, position := 0, prevCyclic := ack } }

/-! ## A datagram passes (R33, R34, R41) -/

def answer (l : Link) (x : Datagram) (residence : Nat) (d : Device) : Reply :=
  let t := x.typ.toNat
  if t = typeDrd then readDatagram x d
  else if t = typeDwr then writeDatagram x d
  else if t = typeDrr then readRangeDatagram x d
  else if t = typeDrw then writeRangeDatagram x d
  else if t = typeBwr then bulkWriteDatagram l x d
  else if t = typeBrq then bulkRequestDatagram x d
  else if t = typeBrd then bulkReadDatagram x d
  else if t = typeEvt then eventDatagram x d
  else if t = typeSync then syncDatagram x residence d
  else timeDatagram x d

def countMalformed (d : Device) : Device := d.addSat 0x1100 0x11 4 1
def countForwarded (d : Device) : Device := d.addWrap 0x1100 0x14 8 1

/-- What leaves of a datagram that the device served. -/
def replyDatagram (d : Device) (x : Datagram) (r : Reply) : Datagram := match r.acted with
  | none => { x with data := r.data }
  | some n => { x with
      data := r.data,
      flags := if r.poison then x.flags ||| 2 else x.flags,
      wc := BitVec.ofNat 16 (satAdd 16 x.wc.toNat n),
      sig := BitVec.ofNat 16 (x.sig.toNat + d.o 0x1100 0x02) }

/-- The datagram leaves; the frame's place moves on, and after the last datagram to the start of another frame. -/
def leave (x : Datagram) (stop : Bool) (d : Device) : Device :=
  let more := dgMore x
  { d with ring := { d.ring with
    txDatagram := some x, position := if more then d.ring.position + 1 else 0,
    stopped := more && (stop || d.ring.stopped), frameEnd := d.cycle } }

/-- A datagram of the frame under way. -/
def datagramIn (l : Link) (x : Datagram) (residence : Nat) (d : Device) : Device :=
  if d.ring.stopped then leave x false d
  else
    let d1 := d.addWrap 0x1100 0x18 8 1
    if !(dgReservedOk x) || !(dgWhole x) then leave x true (countForwarded (countMalformed d1))
    else if !(knownType x.typ.toNat) then leave x false (countForwarded d1)
    else if !(formOk x (d.ring.position == 0)) then leave x false (countForwarded (countMalformed d1))
    else if !(d1.addressed x) || !(d1.servedNow x) then leave x false (countForwarded d1)
    else
      let r := answer l x residence d1
      let y := d.replyDatagram x r
      match r.acted with
      | some _ => leave y false (r.dev.addWrap 0x1100 0x13 8 1)
      | none => leave y false (countForwarded (if r.malformed then countMalformed r.dev else r.dev))

/-- A datagram passes: the first of a frame ends the frame before it, and a SYNC there makes its frame cyclic (R45), a malformed
one for the acknowledge of R46 but not for the watchdog (DESIGN CHOICE, log entry 96). -/
def datagramOp (l : Link) (x : Datagram) (residence : Nat) (d : Device) : Device :=
  if d.ring.position = 0 then
    let d1 := finishFrame d
    datagramIn l x residence { d1 with ring := { d1.ring with cyclic := x.typ.toNat == typeSync, link := l } }
  else datagramIn l x residence d

/-! ## Time and state on the ring (R48 to R50) -/

/-- No cyclic frame within the watchdog time (R48). -/
def watchdogExpiry (d : Device) : Device :=
  let limit := 1000 * d.o 0x1100 0x07
  if limit = 0 ∨ d.cycle ≤ d.ring.lastCyclic + limit ∨ d.o 0x1100 0x05 ≠ ringOperationalState then d
  else (setRingState 2 (d.w 0x1100 0x06 2)).raise 18

/-- No SYNC for 10 ms, or 8 beyond ±2 ns (R50). The count of SYNCs in a row within ±2 ns starts again as well (DESIGN CHOICE, log
entry 118). -/
def syncAbsent (d : Device) : Device :=
  if d.ring.lastSync + 10000000 ≤ d.cycle ∨ 8 ≤ d.ring.lockBad then
    clearLock { d with ring := { d.ring with lockGood := 0 } }
  else d

/-- A PTP Sync passes through a one-step peer-to-peer transparent clock (R49). The delay added is the upstream link's on both
paths: no other is measured (DESIGN CHOICE, log entry 96). -/
def ptpOp (sync : Bool) (correction residence : Nat) (d : Device) : Device :=
  let out := if sync then BitVec.ofNat 64 (ux 64 (sx 64 correction + d.linkTime + residence)) else BitVec.ofNat 64 correction
  { d with ring := { d.ring with txPtp := out } }

end Device

open Device

/-- DRD (R34, R56). -/
def execDrd (x : Datagram) (s : State) : Host.Outcome State Fault Refusal :=
  nextDev s (datagramOp s.dev.ring.link { x with typ := 0x01 } 0 s.dev)

/-- DWR (R37, R56). -/
def execDwr (x : Datagram) (s : State) : Host.Outcome State Fault Refusal :=
  nextDev s (datagramOp s.dev.ring.link { x with typ := 0x02 } 0 s.dev)

/-- DRR (R60). -/
def execDrr (x : Datagram) (s : State) : Host.Outcome State Fault Refusal :=
  nextDev s (datagramOp s.dev.ring.link { x with typ := 0x03 } 0 s.dev)

/-- DRW (R60). -/
def execDrw (x : Datagram) (s : State) : Host.Outcome State Fault Refusal :=
  nextDev s (datagramOp s.dev.ring.link { x with typ := 0x04 } 0 s.dev)

/-- BWR (R51). -/
def execBwr (l : Link) (x : Datagram) (s : State) : Host.Outcome State Fault Refusal :=
  nextDev s (datagramOp l { x with typ := 0x10 } 0 s.dev)

/-- BRQ (R54). -/
def execBrq (x : Datagram) (s : State) : Host.Outcome State Fault Refusal :=
  nextDev s (datagramOp s.dev.ring.link { x with typ := 0x11 } 0 s.dev)

/-- BRD (R54). -/
def execBrd (x : Datagram) (s : State) : Host.Outcome State Fault Refusal :=
  nextDev s (datagramOp s.dev.ring.link { x with typ := 0x12 } 0 s.dev)

/-- EVT (R55). -/
def execEvt (x : Datagram) (s : State) : Host.Outcome State Fault Refusal :=
  nextDev s (datagramOp s.dev.ring.link { x with typ := 0x20 } 0 s.dev)

/-- SYNC (R49): `residence` in units of 2^-16 ns. -/
def execSync (x : Datagram) (residence : Nat) (s : State) : Host.Outcome State Fault Refusal :=
  nextDev s (datagramOp s.dev.ring.link { x with typ := 0x30 } residence s.dev)

/-- TRD (R50). -/
def execTrd (x : Datagram) (s : State) : Host.Outcome State Fault Refusal :=
  nextDev s (datagramOp s.dev.ring.link { x with typ := 0x31 } 0 s.dev)

/-- FRAME_WRITES_APPLY (R37). -/
def execFrameWritesApply (s : State) : Host.Outcome State Fault Refusal := nextDev s (finishFrame s.dev)

/-- SYNC_ABSENCE_TIMEOUT (R50). -/
def execSyncAbsenceTimeout (s : State) : Host.Outcome State Fault Refusal := nextDev s (syncAbsent s.dev)

/-- PDELAY_MEASUREMENT (R49). -/
def execPdelayMeasurement (delay : BitVec 32) (s : State) : Host.Outcome State Fault Refusal :=
  nextDev s (s.dev.w 0x1100 0x09 delay.toNat)

/-- PTP_FRAME (R49). -/
def execPtpFrame (sync : Bool) (correction : BitVec 64) (residence : Nat) (s : State) : Host.Outcome State Fault Refusal :=
  nextDev s (ptpOp sync correction.toNat residence s.dev)

/-- CYCLIC_WATCHDOG_EXPIRY (R48). -/
def execCyclicWatchdogExpiry (s : State) : Host.Outcome State Fault Refusal := nextDev s (watchdogExpiry s.dev)

end Sys2Proof.Machine
end

