-- ==== Sys2Proof/Machine/Frames.lean ====
section
/-!
DEFINITION. Whole Lemile frames (R29 to R33, R36, R37, R41, R43, R44): the path a frame takes, the checks that it must pass to be
examined, its datagrams, and its FCS.
-/
namespace Sys2Proof.Machine

/-- The port that a processed frame leaves on, and whether a frame on link `l` is processed, by the links that are up (R44):
none where the link is down. -/
def framePath (links : Nat) (l : Link) : Option (Bool × Link) := match links % 4, l with
  | 3, .up => some (true, .down)
  | 3, .down => some (false, .up)
  | 1, .up => some (true, .up)
  | 2, .down => some (true, .down)
  | _, _ => none

/-- A frame without its FCS, and the FCS it carries. -/
def frameBody (bs : List Byte) : List Byte := bs.take (bs.length - 4)
def frameFcs (bs : List Byte) : Nat := ofLE (bs.drop (bs.length - 4))

/-- A body with its right FCS, or with the one's complement of it (R37). -/
def withFcs (body : List Byte) (good : Bool) : List Byte :=
  let c := crc32 body
  body ++ leBytes 4 (if good then c else 2 ^ 32 - 1 - c)

/-- The bytes of a datagram. -/
def dgBytes (x : Datagram) : List Byte :=
  [x.typ, x.tag] ++ leBytes 2 x.addr.toNat ++ [x.mode, x.flags] ++ leBytes 2 x.len.toNat ++ leBytes 8 x.target.toNat ++
  x.data ++ leBytes 2 x.wc.toNat ++ leBytes 2 x.sig.toNat

/-- The datagram at the start of the bytes, with as many data bytes as there are; its length in bytes. -/
def dgParse (bs : List Byte) : Datagram × Nat :=
  let n := ofLE ((bs.drop 6).take 2) % 2 ^ 14
  let rest := bs.drop 16
  ({ typ := bs.getD 0 0, tag := bs.getD 1 0, addr := BitVec.ofNat 16 (ofLE ((bs.drop 2).take 2)), mode := bs.getD 4 0,
     flags := bs.getD 5 0, len := BitVec.ofNat 16 (ofLE ((bs.drop 6).take 2)),
     target := BitVec.ofNat 64 (ofLE ((bs.drop 8).take 8)), data := rest.take n,
     wc := BitVec.ofNat 16 (ofLE ((rest.drop n).take 2)), sig := BitVec.ofNat 16 (ofLE ((rest.drop (n + 2)).take 2)) },
   n + 20)

namespace Device

/-- The residence time of a frame: the forwarding delay, in units of 2^-16 ns (R43, R49). -/
def frameResidence : Nat := min Config.forwardingDelay 700000 * 8192 / 125

/-- The bytes of the datagram that has just passed. -/
def lastBytes (d : Device) (was : List Byte) : List Byte := match d.ring.txDatagram with
  | some x => dgBytes x
  | none => was

/-- The datagrams of a frame in order (R33), over at most the given number of them: the device after them and the bytes that
leave. -/
def frameDatagrams (l : Link) : Nat → List Byte → Device → Device × List Byte
  | 0, bs, d => (d, bs)
  | fuel + 1, bs, d =>
    if bs = [] then (d, [])
    else
      let p := dgParse bs
      if bs.length < p.2 then (countForwarded (countMalformed (d.addWrap 0x1100 0x18 8 1)), bs)
      else
        let d1 := datagramIn l p.1 frameResidence d
        let out := d1.lastBytes (bs.take p.2)
        if dgMore p.1 && !d1.ring.stopped then
          let rest := frameDatagrams l fuel (bs.drop p.2) d1
          (rest.1, out ++ rest.2)
        else (d1, out ++ bs.drop p.2)

/-- The frame leaves on a port. -/
def frameOut (port : Option Link) (bs : List Byte) (d : Device) : Device :=
  { d with ring := { d.ring with txFrame := bs, txLink := port } }

/-- The FCS has been checked (R37): a bad one discards the writes, and a cyclic frame is not acknowledged (R46). -/
def fcsChecked (good : Bool) (d : Device) : Device :=
  let d1 := { d with ring := { d.ring with position := 0, stopped := false, frameEnd := d.cycle, verdict := some good } }
  if good then (if d1.ring.held.isEmpty then finishFrame d1 else d1)
  else { d1 with ring := { d1.ring with
    held := [], cyclic := false, prevCyclic := if d1.ring.cyclic then .badFcs else d1.ring.prevCyclic } }.addSat 0x1100 0x10 4 1

/-- An examined frame: its hop count is taken and raised (R36), its datagrams pass, its FCS is checked. -/
def examine (l port : Link) (bs : List Byte) (n : Nat) (d : Device) : Device :=
  let body := frameBody bs
  let hop := (body.getD 17 0).toNat
  let d1 := (finishFrame d).w 0x1100 0x1E hop
  let area := (body.drop 18).take n
  let sync := decide (n ≠ 0) && (area.getD 0 0).toNat == typeSync
  let d2 := { d1 with ring := { d1.ring with hop := hop, link := l, cyclic := sync, position := 0, stopped := false } }
  let r := frameDatagrams l n area d2
  let good := frameFcs bs == crc32 body
  let out := body.take 17 ++ [BitVec.ofNat 8 (min (hop + 1) 255)] ++ r.2 ++ body.drop (18 + n)
  frameOut (some port) (withFcs out good) (fcsChecked good r.1)

/-- A frame arrives on a link (R29, R30, R32, R44). One that is not examined (of another EtherType, tagged, failing R32, or on the
reverse path) is forwarded as it came and not counted, also where its FCS is bad (DESIGN CHOICE, log entry 116). -/
def frameOp (l : Link) (bs : List Byte) (d : Device) : Device :=
  match framePath (d.o 0x1100 0x0A) l with
  | none => d
  | some (processed, port) =>
    let n := ofLE ((bs.drop 14).take 2)
    if bs.length < 64 ∨ 9216 < bs.length then
      frameOut (some port) (withFcs (frameBody bs) false) (d.addSat 0x1100 0x10 4 1)
    else if processed = false ∨ ofBE ((bs.drop 12).take 2) ≠ d.o 0x1100 0x01 ∨ ofBE ((bs.drop 12).take 2) = 0x8100 then
      frameOut (some port) bs d
    else
      let version := (bs.getD 16 0).toNat
      if 16 ≤ version ∨ 2 ^ 14 ≤ n ∨ bs.length < 22 + n then frameOut (some port) bs (countMalformed d)
      else if version ≠ 1 then frameOut (some port) bs d
      else examine l port bs n d

end Device

open Device

/-- LEMILE_FRAME (R36). -/
def execLemileFrame (l : Link) (bytes : List Byte) (s : State) : Host.Outcome State Fault Refusal :=
  nextDev s (frameOp l bytes s.dev)

end Sys2Proof.Machine
end

