-- ==== Sys2Proof/Machine/Ssp.lean ====
section
/-!
DEFINITION. The SSP (R351 to R355): frames, their CRCs, what the port answers, and discards.
-/
namespace Sys2Proof.Machine

/-- CRC-8 with polynomial 0x07, initial value 0, not reflected (R352): one bit, eight bits, a list of bytes. -/
def crc8Bit (c : Nat) : Nat := if 128 ≤ c then (2 * c % 256) ^^^ 0x07 else 2 * c

def crc8Bits : Nat → Nat → Nat
  | 0, c => c
  | n + 1, c => crc8Bits n (crc8Bit c)

def crc8 (bs : List Byte) : Nat := bs.foldl (fun c b => crc8Bits 8 (c ^^^ b.toNat)) 0

/-- The reasons of an error token, and SHORT (R352, R354). -/
def sspHeaderCrc : Nat := 1
def sspDataCrc : Nat := 2
def sspLength : Nat := 3
def sspOpcode : Nat := 4
def sspShort : Nat := 5

/-- The bytes that the header CRC covers. -/
def sspHeader (op : Nat) (f : SspFrame) : List Byte :=
  BitVec.ofNat 8 op :: (leBytes 2 f.ix.toNat ++ [f.sub, f.last] ++ leBytes 2 f.len.toNat)

/-- Why a header is refused, if it is. -/
def sspHeaderError (op : Nat) (f : SspFrame) : Option Nat :=
  if crc8 (sspHeader op f) ≠ f.hcrc.toNat then some sspHeaderCrc
  else if 1024 < f.len.toNat ∨ (op = 5 ∧ f.len ≠ 8) then some sspLength
  else none

namespace Device

def setSspOut (l : List Byte) (d : Device) : Device := { d with boot := { d.boot with sspOut := l } }

/-- A discard (R354): counted, its cause recorded, EV026. -/
def sspDiscarded (cause : Nat) (d : Device) : Device := ((d.addSat 0x1250 0x02 4 1).w 0x1250 0x03 cause).raise 26

/-- A discard that the port answers with an error token. -/
def sspError (reason : Nat) (d : Device) : Device :=
  setSspOut [0x5A, BitVec.ofNat 8 reason] (sspDiscarded reason d)

/-- A frame is completed with an OK token. -/
def sspOk (d : Device) : Device := setSspOut [0xA5] (d.addSat 0x1250 0x01 4 1)

/-- A read or status frame is completed: the data and a CRC-8 over them follow the token. -/
def sspAnswer (data : List Byte) (d : Device) : Device :=
  setSspOut (0xA5 :: data ++ [BitVec.ofNat 8 (crc8 data)]) (d.addSat 0x1250 0x01 4 1)

/-- The SPI mode that the port took at select: 0 or 3, as SSP_CLK stood (R351). -/
def sspSelected (clk : Bool) (d : Device) : Device := d.w 0x1250 0x04 (if clk then 3 else 0)

/-- A frame whose header is good goes on; a disabled port ignores every edge (R351). -/
def sspFrame (op : Nat) (f : SspFrame) (act : Device → Device) (d : Device) : Device :=
  if d.o 0x1250 0x05 = 0 then d
  else
    let d1 := sspSelected f.clk d
    match sspHeaderError op f with
    | some r => sspError r d1
    | none => act d1

/-- A write frame's data: cut short, spoiled, or good. -/
def sspData (f : SspFrame) (act : List Byte → Device → Device) (d : Device) : Device :=
  if f.data.length < f.len.toNat then setSspOut [] (sspDiscarded sspShort d)
  else if crc8 (f.data.take f.len.toNat) ≠ f.dcrc.toNat then sspError sspDataCrc d
  else act (f.data.take f.len.toNat) d

/-- `n` bytes of a value: its leading bytes, then zeros. -/
def fitBytes (n : Nat) (bs : List Byte) : List Byte := (bs ++ List.replicate n 0).take n

def sspReadOp (f : SspFrame) (d : Device) : Device :=
  let r := readObject .ssp f.ix.toNat f.sub.toNat d
  sspAnswer (fitBytes f.len.toNat r.2) r.1

/-- A write (R353): a violation of kinds 0 to 2 is answered with OK whatever its length; else a wrong size with LENGTH. -/
def sspWriteOp (f : SspFrame) (data : List Byte) (d : Device) : Device :=
  let ix := f.ix.toNat
  let sub := f.sub.toNat
  match d.accessKind .ssp true ix sub with
  | some k => sspOk (d.violate .ssp ix sub k)
  | none => if data.length ≠ objSize ix sub then sspError sspLength d else sspOk (valueWrite .ssp ix sub (ofLE data) d)

/-- A range read; a range whose last subindex is below its first is answered with LENGTH, as a malformed one. -/
def sspRangeReadOp (f : SspFrame) (d : Device) : Device :=
  if f.last < f.sub then sspError sspLength d
  else
    let r := readRange .ssp f.ix.toNat f.sub.toNat f.last.toNat f.len.toNat d
    sspAnswer r.2 r.1

def writeAll (p : Port) : List (Nat × Nat × List Byte) → Device → Device
  | [], d => d
  | (ix, sub, data) :: l, d => writeAll p l (valueWrite p ix sub (ofLE data) d)

def sspRangeWriteOp (f : SspFrame) (data : List Byte) (d : Device) : Device :=
  if f.last < f.sub then sspError sspLength d
  else sspOk (writeAll .ssp (rangeWrites f.ix.toNat f.sub.toNat f.last.toNat data) d)

/-- The eight bytes of STATUS (R352). -/
def sspStatusBytes (d : Device) : List Byte :=
  [BitVec.ofNat 8 (d.o 0x1200 0x01), BitVec.ofNat 8 (d.o 0x1100 0x05), BitVec.ofNat 8 (d.role .ssp),
    (if d.event.faultLatch then 1 else 0)] ++ leBytes 2 (d.o 0x1250 0x02) ++ [0, 0]

/-- The select rises inside a byte or before the frame is complete, or the opcode is none of the five (R352, R354): the header's
CRC is looked at first, the opcode before the length, which it bounds (DEDUCED, log entry 77). -/
def sspDiscardOp (cut : SspCut) (d : Device) : Device :=
  if d.o 0x1250 0x05 = 0 then d
  else match cut with
    | .insideByte clk => setSspOut [] (sspDiscarded sspShort (sspSelected clk d))
    | .short clk => setSspOut [] (sspDiscarded sspShort (sspSelected clk d))
    | .opcode op f =>
      if 1 ≤ op.toNat ∧ op.toNat ≤ 5 then d
      else sspError (if crc8 (sspHeader op.toNat f) ≠ f.hcrc.toNat then sspHeaderCrc else sspOpcode) (sspSelected f.clk d)

end Device

open Device

/-- SSP_READ (R352). -/
def execSspRead (f : SspFrame) (s : State) : Host.Outcome State Fault Refusal := nextDev s (sspFrame 1 f (sspReadOp f) s.dev)

/-- SSP_WRITE (R353). -/
def execSspWrite (f : SspFrame) (s : State) : Host.Outcome State Fault Refusal :=
  nextDev s (sspFrame 2 f (sspData f (sspWriteOp f)) s.dev)

/-- SSP_RANGE_READ (R353). -/
def execSspRangeRead (f : SspFrame) (s : State) : Host.Outcome State Fault Refusal :=
  nextDev s (sspFrame 3 f (sspRangeReadOp f) s.dev)

/-- SSP_RANGE_WRITE (R353). -/
def execSspRangeWrite (f : SspFrame) (s : State) : Host.Outcome State Fault Refusal :=
  nextDev s (sspFrame 4 f (sspData f (sspRangeWriteOp f)) s.dev)

/-- SSP_STATUS (R352). -/
def execSspStatus (f : SspFrame) (s : State) : Host.Outcome State Fault Refusal :=
  nextDev s (sspFrame 5 f (fun d => sspAnswer d.sspStatusBytes d) s.dev)

/-- SSP_DISCARD (R352, R354): a rise inside a byte cuts the frame short, as one before its end does. -/
def execSspDiscard (cut : SspCut) (s : State) : Host.Outcome State Fault Refusal := nextDev s (sspDiscardOp cut s.dev)

end Sys2Proof.Machine
end

