-- ==== Sys2Proof/Machine/Dispatch.lean ====
section
/-!
DEFINITION. One arm for each command: its meaning.
-/
namespace Sys2Proof.Machine

def exec (i : Instr) (s : State) : Host.Outcome State Fault Refusal :=
  match i with
  | .lemileFrame l bytes => Sys2Proof.Machine.execLemileFrame l bytes s
  | .frameWritesApply => Sys2Proof.Machine.execFrameWritesApply s
  | .drd d => Sys2Proof.Machine.execDrd d s
  | .dwr d => Sys2Proof.Machine.execDwr d s
  | .drr d => Sys2Proof.Machine.execDrr d s
  | .drw d => Sys2Proof.Machine.execDrw d s
  | .objectWrite p ix sub data => Sys2Proof.Machine.execObjectWrite p ix sub data s
  | .bwr l d => Sys2Proof.Machine.execBwr l d s
  | .bulkWriteComplete => Sys2Proof.Machine.execBulkWriteComplete s
  | .brq d => Sys2Proof.Machine.execBrq d s
  | .bulkReadFetchDone upset => Sys2Proof.Machine.execBulkReadFetchDone upset s
  | .brd d => Sys2Proof.Machine.execBrd d s
  | .evt d => Sys2Proof.Machine.execEvt d s
  | .sync d residence => Sys2Proof.Machine.execSync d residence s
  | .syncAbsenceTimeout => Sys2Proof.Machine.execSyncAbsenceTimeout s
  | .trd d => Sys2Proof.Machine.execTrd d s
  | .pdelayMeasurement delay => Sys2Proof.Machine.execPdelayMeasurement delay s
  | .ptpFrame sync correction residence => Sys2Proof.Machine.execPtpFrame sync correction residence s
  | .linkUp l => Sys2Proof.Machine.execLinkUp l s
  | .linkDown l => Sys2Proof.Machine.execLinkDown l s
  | .cyclicWatchdogExpiry => Sys2Proof.Machine.execCyclicWatchdogExpiry s
  | .requestedRingState p v => Sys2Proof.Machine.execRequestedRingState p v s
  | .ringOperational => Sys2Proof.Machine.execRingOperational s
  | .roleRequest p v => Sys2Proof.Machine.execRoleRequest p v s
  | .roleResponse p data => Sys2Proof.Machine.execRoleResponse p data s
  | .lockoutEnd p => Sys2Proof.Machine.execLockoutEnd p s
  | .bulkLoadTotal p v => Sys2Proof.Machine.execBulkLoadTotal p v s
  | .siteCommit p site v => Sys2Proof.Machine.execSiteCommit p site v s
  | .siteCommitProcess => Sys2Proof.Machine.execSiteCommitProcess s
  | .siteStart p sites time => Sys2Proof.Machine.execSiteStart p sites time s
  | .triggerLineStart line => Sys2Proof.Machine.execTriggerLineStart line s
  | .startTimeReached site => Sys2Proof.Machine.execStartTimeReached site s
  | .refclkLoss => Sys2Proof.Machine.execRefclkLoss s
  | .refclkReturn => Sys2Proof.Machine.execRefclkReturn s
  | .pllRelock t => Sys2Proof.Machine.execPllRelock t s
  | .levelCommit p q v => Sys2Proof.Machine.execLevelCommit p q v s
  | .broadcastStrobeNow p v => Sys2Proof.Machine.execBroadcastStrobeNow p v s
  | .monitorTick q samples => Sys2Proof.Machine.execMonitorTick q samples s
  | .monitorSelfCheckRequest p n v => Sys2Proof.Machine.execMonitorSelfCheckRequest p n v s
  | .selfCheckComplete m => Sys2Proof.Machine.execSelfCheckComplete m s
  | .ppmuSample n value => Sys2Proof.Machine.execPpmuSample n value s
  | .ppmuClampEngage n which => Sys2Proof.Machine.execPpmuClampEngage n which s
  | .ppmuClampRelease n which => Sys2Proof.Machine.execPpmuClampRelease n which s
  | .timingCommit p q v => Sys2Proof.Machine.execTimingCommit p q v s
  | .timingCommitApply q => Sys2Proof.Machine.execTimingCommitApply q s
  | .tmuArm p n => Sys2Proof.Machine.execTmuArm p n s
  | .tmuDisarm p n => Sys2Proof.Machine.execTmuDisarm p n s
  | .tmuReady n => Sys2Proof.Machine.execTmuReady n s
  | .tmuStartEdge n edge => Sys2Proof.Machine.execTmuStartEdge n edge s
  | .tmuStopEdge n edge => Sys2Proof.Machine.execTmuStopEdge n edge s
  | .tmuGateClose n => Sys2Proof.Machine.execTmuGateClose n s
  | .tmuTimeout n => Sys2Proof.Machine.execTmuTimeout n s
  | .tmuOverrange n => Sys2Proof.Machine.execTmuOverrange n s
  | .tmuResult n => Sys2Proof.Machine.execTmuResult n s
  | .vec site w => Sys2Proof.Machine.execVec site w s
  | .rpt site w => Sys2Proof.Machine.execRpt site w s
  | .loop site w => Sys2Proof.Machine.execLoop site w s
  | .endl site w => Sys2Proof.Machine.execEndl site w s
  | .call site w => Sys2Proof.Machine.execCall site w s
  | .ret site w => Sys2Proof.Machine.execRet site w s
  | .jmp site w => Sys2Proof.Machine.execJmp site w s
  | .jmpArm site w => Sys2Proof.Machine.execJmpArm site w s
  | .jmpDisarm site w => Sys2Proof.Machine.execJmpDisarm site w s
  | .bif site w => Sys2Proof.Machine.execBif site w s
  | .matchBlock site w => Sys2Proof.Machine.execMatchBlock site w s
  | .tset site w => Sys2Proof.Machine.execTset site w s
  | .lset site w => Sys2Proof.Machine.execLset site w s
  | .wait site w => Sys2Proof.Machine.execWait site w s
  | .waitConditionMet site => Sys2Proof.Machine.execWaitConditionMet site s
  | .waitTimeout site => Sys2Proof.Machine.execWaitTimeout site s
  | .signalPulse site w => Sys2Proof.Machine.execSignalPulse site w s
  | .signalSet site w => Sys2Proof.Machine.execSignalSet site w s
  | .signalClear site w => Sys2Proof.Machine.execSignalClear site w s
  | .captArm site w => Sys2Proof.Machine.execCaptArm site w s
  | .captAcq site w => Sys2Proof.Machine.execCaptAcq site w s
  | .captFwclr site w => Sys2Proof.Machine.execCaptFwclr site w s
  | .captLog site w => Sys2Proof.Machine.execCaptLog site w s
  | .halt site w => Sys2Proof.Machine.execHalt site w s
  | .illegalOpcode site opc w => Sys2Proof.Machine.execIllegalOpcode site opc w s
  | .vectorCommit site => Sys2Proof.Machine.execVectorCommit site s
  | .stallResume site => Sys2Proof.Machine.execStallResume site s
  | .compareResult x seen => Sys2Proof.Machine.execCompareResult x seen s
  | .failLogEntryClose site => Sys2Proof.Machine.execFailLogEntryClose site s
  | .eventJumpRequest site => Sys2Proof.Machine.execEventJumpRequest site s
  | .eventJump site => Sys2Proof.Machine.execEventJump site s
  | .preloadComplete site => Sys2Proof.Machine.execPreloadComplete site s
  | .preloadAllowanceExpiry site => Sys2Proof.Machine.execPreloadAllowanceExpiry site s
  | .streamRead q poisoned => Sys2Proof.Machine.execStreamRead q poisoned s
  | .sectionDecode q => Sys2Proof.Machine.execSectionDecode q s
  | .captureCopyDone site => Sys2Proof.Machine.execCaptureCopyDone site s
  | .patternEnd site => Sys2Proof.Machine.execPatternEnd site s
  | .controlStoreParityError q => Sys2Proof.Machine.execControlStoreParityError q s
  | .backgroundSweep q parityError => Sys2Proof.Machine.execBackgroundSweep q parityError s
  | .controlStoreReloadDone q faults => Sys2Proof.Machine.execControlStoreReloadDone q faults s
  | .stepComplete site => Sys2Proof.Machine.execStepComplete site s
  | .resultRecordWrite site => Sys2Proof.Machine.execResultRecordWrite site s
  | .admissionRequest site => Sys2Proof.Machine.execAdmissionRequest site s
  | .admissionRetry site => Sys2Proof.Machine.execAdmissionRetry site s
  | .admissionWaitExpiry site => Sys2Proof.Machine.execAdmissionWaitExpiry site s
  | .runPattern site => Sys2Proof.Machine.execRunPattern site s
  | .paramMeasure site => Sys2Proof.Machine.execParamMeasure site s
  | .measurementDone site => Sys2Proof.Machine.execMeasurementDone site s
  | .dpsSet site => Sys2Proof.Machine.execDpsSet site s
  | .settle site => Sys2Proof.Machine.execSettle site s
  | .settleDone site => Sys2Proof.Machine.execSettleDone site s
  | .branch site => Sys2Proof.Machine.execBranch site s
  | .bin site => Sys2Proof.Machine.execBin site s
  | .datalog site => Sys2Proof.Machine.execDatalog site s
  | .calibratePoint site => Sys2Proof.Machine.execCalibratePoint site s
  | .endStep site => Sys2Proof.Machine.execEndStep site s
  | .abort p site v => Sys2Proof.Machine.execAbort p site v s
  | .stepTimeout site => Sys2Proof.Machine.execStepTimeout site s
  | .firstFailRearm p site v => Sys2Proof.Machine.execFirstFailRearm p site v s
  | .dpsCommit p d v => Sys2Proof.Machine.execDpsCommit p d v s
  | .dpsUpdateTick railW railE charge => Sys2Proof.Machine.execDpsUpdateTick railW railE charge s
  | .gangCommit p t v => Sys2Proof.Machine.execGangCommit p t v s
  | .dpsSample d microvolt current => Sys2Proof.Machine.execDpsSample d microvolt current s
  | .dpsClampEngage d => Sys2Proof.Machine.execDpsClampEngage d s
  | .senseOpen d => Sys2Proof.Machine.execSenseOpen d s
  | .headroom d => Sys2Proof.Machine.execHeadroom d s
  | .dpsMonitorTick d current sample => Sys2Proof.Machine.execDpsMonitorTick d current sample s
  | .dpsSelfCheckRequest p d v => Sys2Proof.Machine.execDpsSelfCheckRequest p d v s
  | .chargeClear p d v => Sys2Proof.Machine.execChargeClear p d v s
  | .shutdownRankAdvance => Sys2Proof.Machine.execShutdownRankAdvance s
  | .acquisitionCommit p c v => Sys2Proof.Machine.execAcquisitionCommit p c v s
  | .acquisitionArm p c => Sys2Proof.Machine.execAcquisitionArm p c s
  | .acquisitionDisarm p c => Sys2Proof.Machine.execAcquisitionDisarm p c s
  | .hostTrigger p c v => Sys2Proof.Machine.execHostTrigger p c v s
  | .sampleSet c => Sys2Proof.Machine.execSampleSet c s
  | .autoTimeout c => Sys2Proof.Machine.execAutoTimeout c s
  | .acqReady c => Sys2Proof.Machine.execAcqReady c s
  | .captureComplete c => Sys2Proof.Machine.execCaptureComplete c s
  | .memoryCommit p v => Sys2Proof.Machine.execMemoryCommit p v s
  | .train p => Sys2Proof.Machine.execTrain p s
  | .retrain p => Sys2Proof.Machine.execRetrain p s
  | .release p => Sys2Proof.Machine.execRelease p s
  | .trainingStepDone k ok => Sys2Proof.Machine.execTrainingStepDone k ok s
  | .tablePeriodBoundary => Sys2Proof.Machine.execTablePeriodBoundary s
  | .slot j use => Sys2Proof.Machine.execSlot j use s
  | .disturbanceWindowEnd j => Sys2Proof.Machine.execDisturbanceWindowEnd j s
  | .sdramReadData j addr ecc scrub => Sys2Proof.Machine.execSdramReadData j addr ecc scrub s
  | .alertN j => Sys2Proof.Machine.execAlertN j s
  | .replay j failed => Sys2Proof.Machine.execReplay j failed s
  | .queueCommit p v => Sys2Proof.Machine.execQueueCommit p v s
  | .creditGrant p n => Sys2Proof.Machine.execCreditGrant p n s
  | .dequeue p n => Sys2Proof.Machine.execDequeue p n s
  | .enqueue p v => Sys2Proof.Machine.execEnqueue p v s
  | .entryEnqueued q eop entry => Sys2Proof.Machine.execEntryEnqueued q eop entry s
  | .flush p v => Sys2Proof.Machine.execFlush p v s
  | .flushPoint q => Sys2Proof.Machine.execFlushPoint q s
  | .queueReset q u => Sys2Proof.Machine.execQueueReset q u s
  | .ledgerCheck checker => Sys2Proof.Machine.execLedgerCheck checker s
  | .ledgerLocate t => Sys2Proof.Machine.execLedgerLocate t s
  | .ledgerResume p v => Sys2Proof.Machine.execLedgerResume p v s
  | .clearMemoryCondition p v => Sys2Proof.Machine.execClearMemoryCondition p v s
  | .eventDelivery => Sys2Proof.Machine.execEventDelivery s
  | .faultLatchClear p v => Sys2Proof.Machine.execFaultLatchClear p v s
  | .triggerLinePulse p mask => Sys2Proof.Machine.execTriggerLinePulse p mask s
  | .trigInput k edge width => Sys2Proof.Machine.execTrigInput k edge width s
  | .snapshotTrigger p v => Sys2Proof.Machine.execSnapshotTrigger p v s
  | .snapIn => Sys2Proof.Machine.execSnapIn s
  | .snapshotLatch => Sys2Proof.Machine.execSnapshotLatch s
  | .rearmAllBanks p v => Sys2Proof.Machine.execRearmAllBanks p v s
  | .rearmBank p v => Sys2Proof.Machine.execRearmBank p v s
  | .headSetupCommit p h v => Sys2Proof.Machine.execHeadSetupCommit p h v s
  | .headEnable p h => Sys2Proof.Machine.execHeadEnable p h s
  | .headDisable p h => Sys2Proof.Machine.execHeadDisable p h s
  | .frameCommit p h v => Sys2Proof.Machine.execFrameCommit p h v s
  | .latchInstant h => Sys2Proof.Machine.execLatchInstant h s
  | .lineFetch h => Sys2Proof.Machine.execLineFetch h s
  | .lineMatch h => Sys2Proof.Machine.execLineMatch h s
  | .pixelUnderrun h => Sys2Proof.Machine.execPixelUnderrun h s
  | .frameDone h readBack => Sys2Proof.Machine.execFrameDone h readBack s
  | .porstN => Sys2Proof.Machine.execPorstN s
  | .wake toggles => Sys2Proof.Machine.execWake toggles s
  | .fuseReadDone programmed wrong => Sys2Proof.Machine.execFuseReadDone programmed wrong s
  | .imageReadDone r => Sys2Proof.Machine.execImageReadDone r s
  | .microcodeBroadcastDone faults => Sys2Proof.Machine.execMicrocodeBroadcastDone faults s
  | .bootRestart p v => Sys2Proof.Machine.execBootRestart p v s
  | .coreWatchdog h => Sys2Proof.Machine.execCoreWatchdog h s
  | .pageFill h page bytes => Sys2Proof.Machine.execPageFill h page bytes s
  | .primroseReread arbiter halfW halfE => Sys2Proof.Machine.execPrimroseReread arbiter halfW halfE s
  | .primacyAssignment p v => Sys2Proof.Machine.execPrimacyAssignment p v s
  | .rollbackBurn p v => Sys2Proof.Machine.execRollbackBurn p v s
  | .hostFrameStart p v => Sys2Proof.Machine.execHostFrameStart p v s
  | .cspFrameDone data => Sys2Proof.Machine.execCspFrameDone data s
  | .cspRdyTimeout => Sys2Proof.Machine.execCspRdyTimeout s
  | .windowRead k off len => Sys2Proof.Machine.execWindowRead k off len s
  | .windowWrite k off data => Sys2Proof.Machine.execWindowWrite k off data s
  | .statusPoll k status => Sys2Proof.Machine.execStatusPoll k status s
  | .writeTimeout k => Sys2Proof.Machine.execWriteTimeout k s
  | .sspRead f => Sys2Proof.Machine.execSspRead f s
  | .sspWrite f => Sys2Proof.Machine.execSspWrite f s
  | .sspRangeRead f => Sys2Proof.Machine.execSspRangeRead f s
  | .sspRangeWrite f => Sys2Proof.Machine.execSspRangeWrite f s
  | .sspStatus f => Sys2Proof.Machine.execSspStatus f s
  | .sspDiscard cut => Sys2Proof.Machine.execSspDiscard cut s
  | .calibrationRequest p v => Sys2Proof.Machine.execCalibrationRequest p v s
  | .calibrationStart t => Sys2Proof.Machine.execCalibrationStart t s
  | .calibrationRunDone t r => Sys2Proof.Machine.execCalibrationRunDone t r s
  | .retryIntervalExpiry t => Sys2Proof.Machine.execRetryIntervalExpiry t s
  | .latencyTolerance p t v => Sys2Proof.Machine.execLatencyTolerance p t v s
  | .powerStateChange t => Sys2Proof.Machine.execPowerStateChange t s
  | .dormantReentry t => Sys2Proof.Machine.execDormantReentry t s
  | .sensorConversion t conv => Sys2Proof.Machine.execSensorConversion t conv s
  | .sensorSelfTest t deviations => Sys2Proof.Machine.execSensorSelfTest t deviations s
  | .temperaturePrediction => Sys2Proof.Machine.execTemperaturePrediction s
  | .analogTrip t => Sys2Proof.Machine.execAnalogTrip t s
  | .shutdownComplete => Sys2Proof.Machine.execShutdownComplete s
  | .thermalCommit p v => Sys2Proof.Machine.execThermalCommit p v s
  | .thermalReArm p v selfTestFailed => Sys2Proof.Machine.execThermalReArm p v selfTestFailed s
  | .supplyOutOfRange rail => Sys2Proof.Machine.execSupplyOutOfRange rail s
  | .vaonReset => Sys2Proof.Machine.execVaonReset s
  | .dpsClampRelease d => Sys2Proof.Machine.execDpsClampRelease d s
  | .supplyBackInRange rail => Sys2Proof.Machine.execSupplyBackInRange rail s
  | .porstNAssertion => Sys2Proof.Machine.execPorstNAssertion s

end Sys2Proof.Machine
end

