-- ==== Sys2Proof/Machine/Tick.lean ====
section
/-!
DEFINITION. One cycle of the 1.0 GHz clock, which passes when no command waits (log entry 6): the cycle count and ring time go
on (R23, R49), pulses on the trigger lines end (R296), the signals that are due act on the lines (R142), and the calibrations whose
runs are over are applied (R365), the running patterns arm stalls and choose jumps (R175, R176), and what waited for the memory goes
on to it (R257, R258, R278, R325), and a frame that is due goes on the CSP (R348, R350).
-/
namespace Sys2Proof.Machine
namespace Device

/-- Ring time after one cycle: 1 ns, steered by `steer` units of 2^-16 ns per ms (R49). -/
def ringTick (d : Device) : Device :=
  let acc := d.steerRem + d.steer
  let now := ux 80 (((d.ringNs * 65536 + d.ringFrac + 65536 : Nat) : Int) + acc / 1000000)
  { d with ringNs := now / 65536, ringFrac := now % 65536, steerRem := acc % 1000000 }

/-- A signal reaches the calibration plane (R142): a pulse, a set or a clear of its line. -/
def signalActs (x : Signal) (d : Device) : Device :=
  if x.op = 0 then pulseLines (2 ^ x.line) d else setLine x.site x.line (x.op == 1) d

def signalsAct : List Signal → Device → Device
  | [], d => d
  | x :: l, d => signalsAct l (signalActs x d)

/-- One cycle. -/
def tick (d : Device) : Device :=
  let d1 := ringTick { linesTick d with cycle := d.cycle + 1 }
  let due := d1.sites.signals.filter fun x => decide (x.due ≤ d1.cycle)
  let d2 := { d1 with sites := { d1.sites with signals := d1.sites.signals.filter fun x => decide (d1.cycle < x.due) } }
  let d3 := finishCals (signalsAct due (trigInputsTick (hostTick (snapInTick (commitStrobes d2)))))
  nextFrame (settleIngress (drainQueues (each seqTick d3.runningSites d3)))

end Device

/-- The outcome of a step with no command waiting. -/
def idle (s : State) : Host.Outcome State Fault Refusal := nextDev s s.dev.tick

end Sys2Proof.Machine
end

