-- ==== Sys2Proof/Safety.lean ====
section
/-!
DEFINITION. What the statements of this model rest on: the one form of the register file and the memories, and the states in
which the part runs.
-/
namespace Sys2Proof.Machine

/-- The part is not held in reset by PORST_N (R388). -/
def State.running (s : State) : Prop := s.dev.boot.held = false

/-- The register file is in canonical form (R56, R59): keys rising, and no key listed at the value it has at reset. -/
def Device.objsWf (d : Device) : Bool := Cells.wf resetValue d.objs

/-- Cluster SRAM is in canonical form: addresses rising, and no listed byte that is 0. -/
def Device.sramWf (d : Device) : Bool := Cells.wf (fun _ => (0 : Byte)) d.mem.sram

/-- SDRAM is in canonical form: addresses rising, and no listed byte equal to what the address reads as unlisted. -/
def Device.sdramWf (d : Device) : Bool := Cells.wf d.sdramDefault d.mem.sdram

/-- While PORST_N is low the part is as reset leaves it: only the Primrose copies may differ from their defaults, and no memory
byte is listed (R341, R388). -/
def State.inReset (s : State) : Prop :=
  s.dev.boot.held = true →
    (∀ k, k ≠ okey 0x1220 1 → k ≠ okey 0x1220 2 → k ≠ okey 0x1220 3 → s.dev.get k = resetValue k) ∧
    s.dev.mem = MemState.init ∧ s.dev.pins = PinState.init ∧ s.dev.sites = SiteState.init

/-- A host write of `v` to `ix.sub` through port `p` is served (R42) and meets no violation (R61); `forbidden` is the block's
own kind 4. -/
def Device.accepts (d : Device) (p : Port) (ix sub v : Nat) (forbidden : Bool) : Prop :=
  (p = .ring → d.joined = true) ∧ d.writeKind p ix sub v forbidden = none

/-- The register file of `e` reads as that of `d` but at the keys `ks`. -/
def Device.sameBut (d e : Device) (ks : List Nat) : Prop := ∀ k, k ∉ ks → e.get k = d.get k

/-- An update that changes only the register file, and there only the keys `ks`. -/
def Device.OnlyKeys (d e : Device) (ks : List Nat) : Prop := e = { d with objs := e.objs } ∧ d.sameBut e ks

/-- The objects in which the power state of tile `t` and the short retrain of its channels show (R267, R370, R371). -/
def Device.settleKeys (t : Nat) : List Nat :=
  [okey (0x1320 + t) 0x03, okey (0x1320 + t) 0x04, okey (0x1320 + t) 0x05, okey (0x1320 + t) 0x08,
   okey (0x1610 + 2 * t) 0x03, okey (0x1610 + (2 * t + 1)) 0x03]

/-- `e` is `d` but for the objects `ks` and for moves of the tiles `ts` between power states that began (R371). -/
def Device.OnlySettled (d e : Device) (ks ts : List Nat) : Prop :=
  e = { d with
    objs := e.objs
    power := { d.power with moving := e.power.moving, moveSince := e.power.moveSince }
    mem := { d.mem with trainStep := e.mem.trainStep, trainShort := e.mem.trainShort } } ∧
  d.sameBut e (ks ++ ts.flatMap Device.settleKeys)

/-- `e` is `d` but for the register file and the list of pending commits, there only the entry of block `b`. -/
def Device.commitFrame (d e : Device) (b : Block) (ks : List Nat) : Prop :=
  e = { d with objs := e.objs, pend := e.pend } ∧ d.sameBut e ks ∧ ∀ x, x ≠ b → e.pends x = d.pends x

/-- A commit of block `b` waits for its boundary (R59): the staging copy of each object stands in its pending copy, the status
at `st` reads PENDING, and the active copies are as they were. -/
def Device.commitWaits (d e : Device) (b : Block) (ks : List Nat) (st : Nat) : Prop :=
  Device.commitFrame d e b (st :: ks.map pkey) ∧ (∀ k ∈ ks, e.get (pkey k) = d.get k) ∧ e.get st = codePending ∧
  e.pends b = true

/-- A commit of block `b` is refused with `c` (R59): the pending copy is discarded and the active copies are as they were. -/
def Device.commitRefused (d e : Device) (b : Block) (ks : List Nat) (st c : Nat) : Prop :=
  Device.commitFrame d e b (st :: ks.map pkey) ∧ (∀ k ∈ ks, e.get (pkey k) = 0) ∧ e.get st = c ∧ e.pends b = false

/-- A commit of block `b` is applied (R59): `d` holds the values `v` of its objects, which become active. -/
def Device.commitApplied (d e : Device) (b : Block) (ks : List Nat) (st : Nat) (v : Nat → Nat) (more : List Nat) : Prop :=
  Device.commitFrame d e b (more ++ st :: (ks.map pkey ++ ks.map akey)) ∧ (∀ k ∈ ks, e.get (akey k) = v k) ∧
  e.get st = codeAccepted ∧ e.pends b = false

/-- `e` is `d` but for the context of queue `q` (R272), its tile's level summary and the level event (R287). -/
def Device.queueFrame (d e : Device) (q : Nat) : Prop :=
  e = { d with
    objs := e.objs
    mem := { d.mem with queue := e.mem.queue }
    event := { d.event with raised := e.event.raised, snap := e.event.snap } } ∧
  (∀ r, r ≠ q → e.queueOf r = d.queueOf r) ∧
  d.sameBut e (okey (0x1710 + queueTile q) 0x01 :: (List.range 0x25).map (qkey q))

/-- The block when the header of the next block of site `s`, word `w`, has been taken (R146). -/
def Device.headerTaken (d : Device) (s : Nat) (w : VWord) : Device :=
  Device.takeHeader s (if w.ssm then d.setSeq s { d.seqOf s with nextMark := true } else d)

/-- The sequencer of site `s` issues the block of word `w` now, with no error and no event jump that waits (R122, R124, R146, R175,
R176): `ok`, its operands are listed values; `target`, it names a block by its field T. -/
def Device.issues (d : Device) (s : Nat) (w : VWord) (payload ok target : Bool) : Prop :=
  d.mayIssue s = true ∧ ¬(w.ssm = true ∧ (d.seqOf s).arm.isSome = true) ∧ d.headerError s w payload = none ∧
  ok = true ∧ (target = true → w.t.toNat < (d.seqOf s).blocks) ∧ (d.seqOf s).request = none

/-- The quad objects that show the sequencer and its stream (R153, R181): state, stack depths, counters, flags, jump status,
redirects, squashed vectors and capture area. -/
def Device.issueSubs : List Nat := [0x60, 0x66, 0x67, 0x68, 0x69, 0x6C, 0x7A, 0x7B, 0x7D]

/-- `e` is `d` but for the sequencer of site `s`, the streams of its quads, and the objects that show them at the site's quads and
its lead. -/
def Device.issueFrame (s : Nat) (d e : Device) : Prop :=
  e = { d with objs := e.objs, sites := { d.sites with seq := e.sites.seq, stream := e.sites.stream } } ∧
  (∀ j, j ≠ s → e.seqOf j = d.seqOf j) ∧
  (∀ q, q ∉ d.leadQuad s :: d.siteQuads s → e.streamOf q = d.streamOf q) ∧
  d.sameBut e ((d.leadQuad s :: d.siteQuads s).flatMap fun q => Device.issueSubs.map (okey (quadIx q)))

/-- The block of site `s` has issued with effect `x`, which acts at its boundary (R121): it stands at the end of the run-ahead, and
can commit 48 ns after its issue (R154), outside the splice buffer. -/
def Device.effectIssued (s : Nat) (d e : Device) (x : Effect) : Prop :=
  Device.issueFrame s d e ∧ (e.seqOf s).next = (d.seqOf s).next + 1 ∧
  ∃ r, ((d.seqOf s).earlyLeft = 0 → r = d.issueTime s + issueLatency) ∧
    (e.seqOf s).items = (d.seqOf s).items ++ [.effect (d.seqOf s).next x (d.onPrediction s) r]

/-- The block as a datagram on link `l` finds it: the first of a frame ends the frame before it (R37, R45). -/
def Device.frameBefore (d : Device) (l : Link) (sync : Bool) : Device :=
  if d.ring.position = 0 then
    let e := Device.finishFrame d
    { e with ring := { e.ring with cyclic := sync, link := l } }
  else d

/-- A datagram that comes next is whole, in form, addressed to this device and served by it (R33, R34, R36, R42). -/
def Device.takesDatagram (d : Device) (x : Datagram) : Prop :=
  d.joined = true ∧ d.ring.stopped = false ∧ dgReservedOk x = true ∧ dgWhole x = true ∧
  formOk x (d.ring.position == 0) = true ∧ d.addressed x = true

/-- The device acted on datagram `x`: it leaves with `data`, the working counter raised by `n` and the node address in the
signature, and counts as processed (R35, R41). -/
def Device.actedOn (d e : Device) (x : Datagram) (data : List Byte) (n : Nat) : Prop :=
  e.ring.txDatagram = some { x with
    data := data, wc := BitVec.ofNat 16 (min (x.wc.toNat + n) 65535),
    sig := BitVec.ofNat 16 (x.sig.toNat + d.o 0x1100 0x02) } ∧
  e.o 0x1100 0x18 = (d.o 0x1100 0x18 + 1) % 2 ^ 64 ∧ e.o 0x1100 0x13 = (d.o 0x1100 0x13 + 1) % 2 ^ 64 ∧
  e.o 0x1100 0x14 = d.o 0x1100 0x14

/-- The device did not act on datagram `x`: it leaves with `data` and counts as forwarded; `bad`: it is malformed (R34, R41). -/
def Device.passedOn (d e : Device) (x : Datagram) (data : List Byte) (bad : Bool) : Prop :=
  e.ring.txDatagram = some { x with data := data } ∧ e.o 0x1100 0x18 = (d.o 0x1100 0x18 + 1) % 2 ^ 64 ∧
  e.o 0x1100 0x14 = (d.o 0x1100 0x14 + 1) % 2 ^ 64 ∧ e.o 0x1100 0x13 = d.o 0x1100 0x13 ∧
  e.o 0x1100 0x11 = (if bad then min (d.o 0x1100 0x11 + 1) (2 ^ 32 - 1) else d.o 0x1100 0x11)

/-- A violation of kind `kind` by port `p` at `ix.sub` has been counted and recorded (R61). -/
def Device.violated (d e : Device) (p : Port) (ix sub kind : Nat) : Prop :=
  e.o 0x4000 0x01 = min (d.o 0x4000 0x01 + 1) (2 ^ 32 - 1) ∧
  e.o 0x4000 0x02 = ix % 2 ^ 16 + sub % 2 ^ 8 * 2 ^ 16 + portNo p * 2 ^ 24 + kind * 2 ^ 25

end Sys2Proof.Machine
end

