-- ==== Sys2Proof/Certificates/Slice0/Obligations.lean ====
section
/-!
DEFINITION. The statements about the model, for the provers.
-/
open Sys2Proof Sys2Proof.Machine Sys2Proof.Machine.Device

/-- A VEC or RPT that issues with no error joins the run-ahead of its site as one block of N vectors, the next block to issue is
the one after it, and nothing outside the site's sequencer and the objects that show it changes; a count of 0 queues nothing.
VEC takes one vector from its payload for each of the N, RPT repeats one, given in A[2:0] where A[3] is 1. -/
def Obligations.VectorsIssue : Prop :=
  ∀ (st : State) (s : Site) (w : VWord), st.running →
    (st.dev.issues s w (w.n != 0) (flagsOk w false false false && fieldsOk w 0 0 all32 0 0xFFFF) false →
      ∃ t, exec (.vec s w) st = .next t ∧ t.pending = st.pending ∧ issueFrame s st.dev t.dev ∧
        (t.dev.seqOf s).next = (st.dev.seqOf s).next + 1 ∧
        (w.n = 0 → (t.dev.seqOf s).items = (st.dev.seqOf s).items) ∧
        (w.n ≠ 0 → ∃ p, (t.dev.seqOf s).items = (st.dev.seqOf s).items ++ [.vectors p] ∧ p.blk = (st.dev.seqOf s).next ∧
          p.total = w.n.toNat ∧ p.done = 0 ∧ p.interval = w.x.toNat ∧ p.rpt = false ∧ p.uniform = none)) ∧
    (st.dev.issues s w (!(bit w.a.toNat 3)) (flagsOk w false false false && fieldsOk w 0x0F 0 all32 0 0xFFFF) false →
      ∃ t, exec (.rpt s w) st = .next t ∧ t.pending = st.pending ∧ issueFrame s st.dev t.dev ∧
        (t.dev.seqOf s).next = (st.dev.seqOf s).next + 1 ∧
        (w.n = 0 → (t.dev.seqOf s).items = (st.dev.seqOf s).items) ∧
        (w.n ≠ 0 → ∃ p, (t.dev.seqOf s).items = (st.dev.seqOf s).items ++ [.vectors p] ∧ p.blk = (st.dev.seqOf s).next ∧
          p.total = w.n.toNat ∧ p.done = 0 ∧ p.interval = w.x.toNat ∧ p.rpt = true ∧
          p.uniform = if bit w.a.toNat 3 then some (w.a.toNat % 8) else none))

/-- A TSET, LSET, SIGNAL (pulse, set or clear), CAPT, WAIT or HALT that issues with no error joins the run-ahead of its site as
an effect that acts when its boundary commits (R121); the next block to issue is the one after it; nothing outside the site's
sequencer changes. WAIT and HALT stop issue, and HALT disarms the event jump. A word whose opcode R124 does not list stops
issue, and a halt with reason ILLEGAL-OPCODE (4), no payload cause and no faulting quad stands at its boundary; the stacks
stay as they are. A poisoned header, a header past the last block and, within RES, one that is not resident stop it with
reasons of their own before the opcode is looked at. -/
def Obligations.BoundaryEffectsIssue : Prop :=
  ∀ (st : State) (s : Site) (w : VWord), st.running →
    (st.dev.issues s w false (flagsOk w false false false && fieldsOk w 0x3F 0 0 0 0) false →
      ∃ t, exec (.tset s w) st = .next t ∧ t.pending = st.pending ∧ effectIssued s st.dev t.dev (.tset w.a.toNat)) ∧
    (st.dev.issues s w false (flagsOk w false false false && fieldsOk w 0x0F 0 0 0 0) false →
      ∃ t, exec (.lset s w) st = .next t ∧ t.pending = st.pending ∧ effectIssued s st.dev t.dev (.lset w.a.toNat)) ∧
    (w.b = 0 → st.dev.issues s w false (flagsOk w false false false && fieldsOk w 0x1F 3 0 0 0 && w.b != 3) false →
      ∃ t, exec (.signalPulse s w) st = .next t ∧ t.pending = st.pending ∧ effectIssued s st.dev t.dev (.signal w.a.toNat 0)) ∧
    (w.b = 1 → st.dev.issues s w false (flagsOk w false false false && fieldsOk w 0x1F 3 0 0 0 && w.b != 3) false →
      ∃ t, exec (.signalSet s w) st = .next t ∧ t.pending = st.pending ∧ effectIssued s st.dev t.dev (.signal w.a.toNat 1)) ∧
    (w.b = 2 → st.dev.issues s w false (flagsOk w false false false && fieldsOk w 0x1F 3 0 0 0 && w.b != 3) false →
      ∃ t, exec (.signalClear s w) st = .next t ∧ t.pending = st.pending ∧ effectIssued s st.dev t.dev (.signal w.a.toNat 2)) ∧
    (st.dev.issues s w false (flagsOk w false false false && fieldsOk w 0x1F 0 0 0 0 && bitf w.a.toNat 3 2 != 3) false →
      (w.a ||| 1 = w.a → ∃ t, exec (.captArm s w) st = .next t ∧ t.pending = st.pending ∧
        effectIssued s st.dev t.dev (.capt w.a.toNat)) ∧
      (w.a ||| 2 = w.a → ∃ t, exec (.captAcq s w) st = .next t ∧ t.pending = st.pending ∧
        effectIssued s st.dev t.dev (.capt w.a.toNat)) ∧
      (w.a ||| 4 = w.a → ∃ t, exec (.captFwclr s w) st = .next t ∧ t.pending = st.pending ∧
        effectIssued s st.dev t.dev (.capt w.a.toNat)) ∧
      (∃ t, exec (.captLog s w) st = .next t ∧ t.pending = st.pending ∧ effectIssued s st.dev t.dev (.capt w.a.toNat))) ∧
    (st.dev.onPrediction s = false → st.dev.issues s w false (flagsOk w false false false && fieldsOk w 7 3 all32 0 0x87) false →
      ∃ t, exec (.wait s w) st = .next t ∧ t.pending = st.pending ∧ (t.dev.seqOf s).issuing = false ∧
        effectIssued s st.dev t.dev (.wait (w.a.toNat % 8) (bit w.b.toNat 0) (bit w.b.toNat 1) w.n.toNat w.x.toNat)) ∧
    (st.dev.issues s w false (flagsOk w false false false && fieldsOk w 0xFF 0 0 0 0) false →
      ∃ t, exec (.halt s w) st = .next t ∧ t.pending = st.pending ∧ (t.dev.seqOf s).issuing = false ∧
        (t.dev.seqOf s).jump = none ∧ effectIssued s st.dev t.dev (.halt w.a.toNat)) ∧
    (∀ (opc : BitVec 8), opc = 0 ∨ 16 ≤ opc.toNat → st.dev.issues s w false true false →
      ∃ t, exec (.illegalOpcode s opc w) st = .next t ∧ t.pending = st.pending ∧ issueFrame s st.dev t.dev ∧
        (t.dev.seqOf s).issuing = false ∧ (t.dev.seqOf s).loops = (st.dev.seqOf s).loops ∧
        (t.dev.seqOf s).calls = (st.dev.seqOf s).calls ∧
        ∃ r, (t.dev.seqOf s).items =
          (st.dev.seqOf s).items ++ [.effect (st.dev.seqOf s).next (.error haltOpcode 0 noQuad) (st.dev.onPrediction s) r])

/-- A LOOP with count 0 pushes nothing and goes on at block T; one with a count pushes an entry with that count, unless 16
entries are held already, and goes on with its body: with RES set nothing is captured; a body inside one that is captured
takes no space of its own, and block T - 1 is checked at once where that copy is made, else when it is made; any other body
is captured if it fits the capture area of every site quad, with CAPTURE-SPACE at the first quad where it does not. The
seventeenth entry halts the site. ENDL goes back to T and takes one from the count while more than one iteration is left, and
else pops the entry and goes on with the next block; the capture area is released with the last entry that owns a capture;
where block T - 1 is still to be checked and is not the matching ENDL, a nesting error stands at the LOOP's boundary, or at
the first one not committed where that has passed (R165; which LOOP fails, and the boundary of one that has passed, are the
model's choice, log entry 28); with no entry it halts the site. -/
def Obligations.LoopsIssue : Prop :=
  ∀ (st : State) (s : Site) (w : VWord), st.running →
    (st.dev.issues s w false (flagsOk w false true false && fieldsOk w 0x8F 0 all32 all32 0 && !(bit w.a.toNat 7 && w.n != 0))
        true →
      let c := if bit w.a.toNat 7 then counterOf (st.dev.seqCounters s) (w.a.toNat % 16) else w.n.toNat
      let z := st.dev.seqOf s
      ∃ t, exec (.loop s w) st = .next t ∧ t.pending = st.pending ∧ issueFrame s st.dev t.dev ∧
        (t.dev.seqOf s).calls = z.calls ∧
        (c = 0 → (t.dev.seqOf s).loops = z.loops ∧ (t.dev.seqOf s).items = z.items ∧ (t.dev.seqOf s).next = w.t.toNat) ∧
        (c ≠ 0 → z.loops.length < 16 → w.res = true →
          (t.dev.seqOf s).loops = ⟨c, true, false, false, z.next + 1, w.t.toNat⟩ :: z.loops ∧ (t.dev.seqOf s).items = z.items ∧
          (t.dev.seqOf s).captures = z.captures ∧ (t.dev.seqOf s).next = z.next + 1) ∧
        (∀ k, c ≠ 0 → z.loops.length < 16 → w.res = false → bodyHeld z (z.next + 1) w.t.toNat = some k →
          (t.dev.seqOf s).captures = z.captures ∧
          (k.copied = true → st.dev.endlMatches s (z.next + 1) w.t.toNat = true →
            (t.dev.seqOf s).loops = ⟨c, false, false, false, z.next + 1, w.t.toNat⟩ :: z.loops ∧
            (t.dev.seqOf s).items = z.items ∧ (t.dev.seqOf s).next = z.next + 1) ∧
          (k.copied = true → st.dev.endlMatches s (z.next + 1) w.t.toNat = false →
            (t.dev.seqOf s).loops = z.loops ∧ (t.dev.seqOf s).issuing = false ∧ ∃ r, (t.dev.seqOf s).items =
              z.items ++ [.effect z.next (.error haltNest 0 noQuad) (st.dev.onPrediction s) r]) ∧
          (k.copied = false →
            (t.dev.seqOf s).loops = ⟨c, false, false, true, z.next + 1, w.t.toNat⟩ :: z.loops ∧
            (t.dev.seqOf s).next = z.next + 1 ∧ ∃ x r, x.loops = z.loops ∧ x.calls = z.calls ∧
              (t.dev.seqOf s).items = z.items ++ [.effect z.next (.captureMark x) (st.dev.onPrediction s) r])) ∧
        (c ≠ 0 → z.loops.length < 16 → w.res = false → bodyHeld z (z.next + 1) w.t.toNat = none →
          st.dev.captureShort s (z.next + 1) w.t.toNat = none →
          (t.dev.seqOf s).loops = ⟨c, false, true, true, z.next + 1, w.t.toNat⟩ :: z.loops ∧ (t.dev.seqOf s).next = z.next + 1 ∧
          (t.dev.seqOf s).captures = z.captures ++ [⟨z.next + 1, w.t.toNat, false⟩] ∧
          ∃ x r, x.loops = z.loops ∧ x.calls = z.calls ∧
            (t.dev.seqOf s).items = z.items ++ [.effect z.next (.captureMark x) (st.dev.onPrediction s) r]) ∧
        (∀ q, c ≠ 0 → z.loops.length < 16 → w.res = false → bodyHeld z (z.next + 1) w.t.toNat = none →
          st.dev.captureShort s (z.next + 1) w.t.toNat = some q →
          (t.dev.seqOf s).loops = z.loops ∧ (t.dev.seqOf s).issuing = false ∧ ∃ r, (t.dev.seqOf s).items =
            z.items ++ [.effect z.next (.error haltPayload causeCaptureSpace q) (st.dev.onPrediction s) r]) ∧
        (c ≠ 0 → 16 ≤ z.loops.length → (t.dev.seqOf s).loops = z.loops ∧ (t.dev.seqOf s).issuing = false ∧
          ∃ r, (t.dev.seqOf s).items = z.items ++ [.effect z.next (.error haltLoop 0 noQuad) (st.dev.onPrediction s) r])) ∧
    (st.dev.issues s w false (flagsOk w false false false && fieldsOk w 0 0 0 all32 0) true →
      let z := st.dev.seqOf s
      ∃ t, exec (.endl s w) st = .next t ∧ t.pending = st.pending ∧ issueFrame s st.dev t.dev ∧
        (∀ l rest, z.loops = l :: rest →
          (1 < l.left → (t.dev.seqOf s).loops = { l with left := l.left - 1 } :: rest ∧ (t.dev.seqOf s).next = w.t.toNat ∧
            (t.dev.seqOf s).items = z.items ∧ (t.dev.seqOf s).calls = z.calls) ∧
          (l.left ≤ 1 → l.check = false ∨ st.dev.endlMatches s l.first l.exit = true →
            (t.dev.seqOf s).loops = rest ∧ (t.dev.seqOf s).next = z.next + 1 ∧ (t.dev.seqOf s).items = z.items ∧
            (t.dev.seqOf s).calls = z.calls ∧
            (t.dev.seqOf s).captures = if l.owns && !(rest.any fun k => k.owns) then [] else z.captures) ∧
          (l.left ≤ 1 → l.check = true → st.dev.endlMatches s l.first l.exit = false →
            (t.dev.seqOf s).issuing = false ∧
            (splitLoop (l.first - 1) z.items = none → (t.dev.seqOf s).loops = z.lastSnap.loops ∧
              (t.dev.seqOf s).calls = z.lastSnap.calls ∧
              (t.dev.seqOf s).items = [.effect (l.first - 1) (.error haltNest 0 noQuad) false st.dev.cycle]) ∧
            (∀ kept x sp r gone, splitLoop (l.first - 1) z.items = some (kept, (x, sp, r), gone) →
              (t.dev.seqOf s).loops = x.loops ∧ (t.dev.seqOf s).calls = x.calls ∧
              (t.dev.seqOf s).items = kept ++ [.effect (l.first - 1) (.error haltNest 0 noQuad) sp r]))) ∧
        (z.loops = [] → (t.dev.seqOf s).issuing = false ∧ (t.dev.seqOf s).calls = z.calls ∧
          ∃ r, (t.dev.seqOf s).items = z.items ++ [.effect z.next (.error haltNest 0 noQuad) (st.dev.onPrediction s) r]))

/-- A CALL with fewer than 16 calls open, outside a captured body or with RES, pushes the block after it and the loop depth and
goes on at T; a RET pops that entry and goes on at the block it names if the loop depth is the one it was pushed with; JMP
form 0 goes on at T and leaves both stacks; form 1 arms the event jump with input B[2:0], NEG B[3], target T and mode, form 2
disarms it. A CALL without RES in a captured body, a seventeenth CALL, a RET with no call and a RET at another loop depth
each stop issue with the halt that R129 or R165 names. No vector is queued. -/
def Obligations.CallsAndJumpsIssue : Prop :=
  ∀ (st : State) (s : Site) (w : VWord), st.running →
    (st.dev.issues s w false (flagsOk w false true false && fieldsOk w 0 0 0 all32 0) true →
      let z := st.dev.seqOf s
      ∃ t, exec (.call s w) st = .next t ∧ t.pending = st.pending ∧ issueFrame s st.dev t.dev ∧
        (t.dev.seqOf s).loops = z.loops ∧
        (z.calls.length < 16 → w.res = true ∨ st.dev.isCaptured s z.next = false →
          (t.dev.seqOf s).calls = ⟨z.next + 1, z.loops.length, w.res, w.t.toNat⟩ :: z.calls ∧ (t.dev.seqOf s).next = w.t.toNat ∧
          (t.dev.seqOf s).items = z.items) ∧
        (z.calls.length < 16 → w.res = false → st.dev.isCaptured s z.next = true →
          (t.dev.seqOf s).calls = z.calls ∧ (t.dev.seqOf s).issuing = false ∧ ∃ r, (t.dev.seqOf s).items =
            z.items ++ [.effect z.next (.error haltPayload causeNotResident (st.dev.leadQuad s)) (st.dev.onPrediction s) r]) ∧
        (16 ≤ z.calls.length → (t.dev.seqOf s).calls = z.calls ∧ (t.dev.seqOf s).issuing = false ∧
          ∃ r, (t.dev.seqOf s).items = z.items ++ [.effect z.next (.error haltCall 0 noQuad) (st.dev.onPrediction s) r])) ∧
    (st.dev.issues s w false (flagsOk w false false false && fieldsOk w 0 0 0 0 0) false →
      let z := st.dev.seqOf s
      ∃ t, exec (.ret s w) st = .next t ∧ t.pending = st.pending ∧ issueFrame s st.dev t.dev ∧
        (t.dev.seqOf s).loops = z.loops ∧
        (∀ c rest, z.calls = c :: rest → c.depth = z.loops.length →
          (t.dev.seqOf s).calls = rest ∧ (t.dev.seqOf s).next = c.ret ∧ (t.dev.seqOf s).items = z.items) ∧
        (∀ c rest, z.calls = c :: rest → c.depth ≠ z.loops.length → (t.dev.seqOf s).issuing = false ∧
          ∃ r, (t.dev.seqOf s).items = z.items ++ [.effect z.next (.error haltNest 0 noQuad) (st.dev.onPrediction s) r]) ∧
        (z.calls = [] → (t.dev.seqOf s).issuing = false ∧
          ∃ r, (t.dev.seqOf s).items = z.items ++ [.effect z.next (.error haltRet 0 noQuad) (st.dev.onPrediction s) r])) ∧
    (w.a = 0 → st.dev.issues s w false (jmpOk w) true →
      ∃ t, exec (.jmp s w) st = .next t ∧ t.pending = st.pending ∧ issueFrame s st.dev t.dev ∧
        (t.dev.seqOf s).next = w.t.toNat ∧ (t.dev.seqOf s).loops = (st.dev.seqOf s).loops ∧
        (t.dev.seqOf s).calls = (st.dev.seqOf s).calls ∧ (t.dev.seqOf s).items = (st.dev.seqOf s).items) ∧
    (w.a = 1 → st.dev.issues s w false (jmpOk w) true →
      ∃ t, exec (.jmpArm s w) st = .next t ∧ t.pending = st.pending ∧ issueFrame s st.dev t.dev ∧
        (t.dev.seqOf s).next = (st.dev.seqOf s).next + 1 ∧ (t.dev.seqOf s).items = (st.dev.seqOf s).items ∧
        (t.dev.seqOf s).jump =
          some { input := w.b.toNat % 8, neg := bit w.b.toNat 3, target := w.t.toNat, splice := w.mode }) ∧
    (w.a = 2 → st.dev.issues s w false (jmpOk w) false →
      ∃ t, exec (.jmpDisarm s w) st = .next t ∧ t.pending = st.pending ∧ issueFrame s st.dev t.dev ∧
        (t.dev.seqOf s).next = (st.dev.seqOf s).next + 1 ∧ (t.dev.seqOf s).items = (st.dev.seqOf s).items ∧
        (t.dev.seqOf s).jump = none)

/-- A BIF on a flag, input or counter, or on ALWAYS, goes on at T if its condition, inverted by NEG, holds, else at the next
block; with DEC it takes one from the counter it tested, unless that is 0. A BIF on FAIL whose result is not known yet takes
the predicted path with MODE SPLICE, and with MODE WAIT stops issue; either way a conditional is open. A MATCH whose N and X
are not 0 queues its body of X vectors, in SPLICE mode N times X, and opens a conditional with its outcome flag and counter,
when its data are in the loop cache, its block is in a captured body or its body fits the capture area; with N or X 0 it
opens none and queues nothing, clears the outcome flag and zeroes the outcome counter that A and B name, and in SPLICE mode
reports an overrun of 0 (the model's choice, log entry 104). -/
def Obligations.ConditionalsIssue : Prop :=
  ∀ (st : State) (s : Site) (w : VWord), st.running →
    (w.a ≠ 0x20 → st.dev.issues s w false (flagsOk w true false true && fieldsOk w 0x3F 3 0 all32 0 && selectOk w.a.toNat &&
        (!(bit w.b.toNat 1) || selectCounter w.a.toNat)) true →
      ∃ t, exec (.bif s w) st = .next t ∧ t.pending = st.pending ∧ issueFrame s st.dev t.dev ∧
        (t.dev.seqOf s).next = (if st.dev.bifTest s w.a.toNat != bit w.b.toNat 0 then w.t.toNat else (st.dev.seqOf s).next + 1) ∧
        (t.dev.seqOf s).items = (st.dev.seqOf s).items ∧ (t.dev.seqOf s).cond = (st.dev.seqOf s).cond ∧
        (bit w.b.toNat 1 = true → t.dev.seqCounters s = setFld (st.dev.seqCounters s) (4 * (w.a.toNat - 16)) 4
          (counterOf (st.dev.seqCounters s) (w.a.toNat - 16) - 1)) ∧
        (bit w.b.toNat 1 = false → t.dev.seqCounters s = st.dev.seqCounters s)) ∧
    (w.a = 0x20 → st.dev.onPrediction s = false → st.dev.failKnown s = false →
      st.dev.issues s w false (flagsOk w true false true && fieldsOk w 0x3F 3 0 all32 0 && selectOk w.a.toNat &&
        (!(bit w.b.toNat 1) || selectCounter w.a.toNat)) true →
      ∃ t k, exec (.bif s w) st = .next t ∧ t.pending = st.pending ∧ issueFrame s st.dev t.dev ∧
        (t.dev.seqOf s).cond = some k ∧ k.isMatch = false ∧ k.splice = w.mode ∧ k.predicted = w.pred ∧
        k.neg = bit w.b.toNat 0 ∧ k.target = w.t.toNat ∧
        k.upTo = (st.dev.seqOf s).vectors + st.dev.queuedVectors s ∧ (t.dev.seqOf s).items = (st.dev.seqOf s).items ∧
        (w.mode = false → (t.dev.seqOf s).issuing = false) ∧
        (w.mode = true → (t.dev.seqOf s).next = if w.pred then w.t.toNat else (st.dev.seqOf s).next + 1)) ∧
    ((w.n = 0 ∨ w.x = 0) → w.mode = true → st.dev.onPrediction s = false →
      st.dev.issues s w (w.x != 0) (flagsOk w true false false && fieldsOk w 0x87 0x8F all32 0 0xFFFF) false →
      ∃ t, exec (.matchBlock s w) st = .next t ∧ t.pending = st.pending ∧ t.dev.o (siteIx s) 0x14 = 0 ∧
        (w.a.toNat < 128 → bit (t.dev.seqFlags s) (w.a.toNat % 8) = false) ∧
        (w.b.toNat < 128 → counterOf (t.dev.seqCounters s) (w.b.toNat % 16) = 0) ∧
        (t.dev.seqOf s).next = (st.dev.seqOf s).next + 1 ∧ (t.dev.seqOf s).cond = (st.dev.seqOf s).cond ∧ (t.dev.seqOf s).items = (st.dev.seqOf s).items) ∧
    ((w.n = 0 ∨ w.x = 0) → w.mode = false → st.dev.onPrediction s = false →
      st.dev.issues s w (w.x != 0) (flagsOk w true false false && fieldsOk w 0x87 0x8F all32 0 0xFFFF) false →
      ∃ t, exec (.matchBlock s w) st = .next t ∧ t.pending = st.pending ∧ issueFrame s st.dev t.dev ∧
        (w.a.toNat < 128 → bit (t.dev.seqFlags s) (w.a.toNat % 8) = false) ∧
        (w.b.toNat < 128 → counterOf (t.dev.seqCounters s) (w.b.toNat % 16) = 0) ∧
        (t.dev.seqOf s).cond = (st.dev.seqOf s).cond ∧ (t.dev.seqOf s).items = (st.dev.seqOf s).items ∧
        (t.dev.seqOf s).next = (st.dev.seqOf s).next + 1) ∧
    (w.n ≠ 0 → w.x ≠ 0 → st.dev.onPrediction s = false →
      st.dev.isCaptured s (st.dev.seqOf s).next = true ∨ st.dev.blockResident s (st.dev.seqOf s).next true = true ∨
        st.dev.captureShort s (st.dev.seqOf s).next ((st.dev.seqOf s).next + 1) = none →
      st.dev.issues s w (w.x != 0) (flagsOk w true false false && fieldsOk w 0x87 0x8F all32 0 0xFFFF) false →
      ∃ t k p, exec (.matchBlock s w) st = .next t ∧ t.pending = st.pending ∧ issueFrame s st.dev t.dev ∧
        (t.dev.seqOf s).cond = some k ∧ k.isMatch = true ∧ k.splice = w.mode ∧ k.iterations = w.n.toNat ∧
        k.length = w.x.toNat ∧ k.flag = w.a.toNat ∧ k.counter = w.b.toNat ∧
        (t.dev.seqOf s).items = (st.dev.seqOf s).items ++ [.vectors p] ∧ p.iter = w.x.toNat ∧
        p.total = (if w.mode then w.n.toNat * w.x.toNat else w.x.toNat) ∧
        (t.dev.seqOf s).next = (st.dev.seqOf s).next + 1)

/-- A write of 1 to the commit object of a timing block, a DPS block, a gang map, a site or a level block that passes the block's
checks on the staged values, copies every staged value into the pending copy, shows PENDING and changes nothing else: the
active values and the other pending commits are as they were. In strobe mode 0 a level block's commit asks for a strobe in
the next cycle, else it asks for none. -/
def Obligations.CommitsWait : Prop :=
  ∀ (st : State) (p : Port), st.running →
    (∀ (q : Quad) (v : Byte), st.dev.accepts p (quadIx q) 0x1B v.toNat false →
      timingCheck q (stage (timingKeys q) st.dev) = 0 →
      ∃ t, exec (.timingCommit p q v) st = .next t ∧ t.pending = st.pending ∧
        st.dev.commitWaits t.dev (.timing q) (timingKeys q) (timingStatusKey q)) ∧
    (∀ (d : Dps) (v : Byte), st.dev.accepts p (dpsIx d) 0x18 v.toNat false → dpsCheck d (stage (dpsKeys d) st.dev) = 0 →
      ∃ t, exec (.dpsCommit p d v) st = .next t ∧ t.pending = st.pending ∧
        st.dev.commitWaits t.dev (.dps d) (dpsKeys d) (dpsStatusKey d)) ∧
    (∀ (g : Tile) (v : Byte), st.dev.accepts p (tileIx g) 0x31 v.toNat false → gangCheck g (stage (gangKeys g) st.dev) = 0 →
      ∃ t, exec (.gangCommit p g v) st = .next t ∧ t.pending = st.pending ∧
        st.dev.commitWaits t.dev (.gang g) (gangKeys g) (gangStatusKey g)) ∧
    (∀ (s : Site) (v : Byte), st.dev.accepts p (siteIx s) 0x0F v.toNat false →
      siteCheck s (stage (siteKeys s) (st.dev.dropPend (.site s))) = 0 →
      ∃ t, exec (.siteCommit p s v) st = .next t ∧ t.pending = st.pending ∧
        st.dev.commitWaits t.dev (.site s) (siteKeys s) (siteStatusKey s)) ∧
    (∀ (q : Quad) (v : Byte), st.dev.accepts p (quadIx q) 0x16 v.toNat false → levelCheck q (stage (levelKeys q) st.dev) = 0 →
      ∀ own : List Nat, own = (if st.dev.o (quadIx q) 0x14 = 0 then [q.val] else []) →
      ∃ t e, exec (.levelCommit p q v) st = .next t ∧ t.pending = st.pending ∧
        st.dev.commitWaits e (.level q) (levelKeys q) (levelStatusKey q) ∧
        t.dev = { e with pins := { e.pins with strobes := (st.dev.pins.strobes.filter fun r => r != q.val) ++ own } })

/-- A write of 1 to a commit object whose block fails its checks on the staged values shows the code that the checks give,
discards the pending copy, the one of an earlier commit too, and changes nothing else: timing, DPS, gang, site, level,
acquisition, memory, thermal and raster head setup commits. -/
def Obligations.CommitsAreRefused : Prop :=
  ∀ (st : State) (p : Port) (v : Byte), st.running →
    (∀ (q : Quad), st.dev.accepts p (quadIx q) 0x1B v.toNat false → timingCheck q (stage (timingKeys q) st.dev) ≠ 0 →
      ∃ t, exec (.timingCommit p q v) st = .next t ∧ t.pending = st.pending ∧
        st.dev.commitRefused t.dev (.timing q) (timingKeys q) (timingStatusKey q) (timingCheck q (stage (timingKeys q) st.dev))) ∧
    (∀ (d : Dps), st.dev.accepts p (dpsIx d) 0x18 v.toNat false → dpsCheck d (stage (dpsKeys d) st.dev) ≠ 0 →
      ∃ t, exec (.dpsCommit p d v) st = .next t ∧ t.pending = st.pending ∧
        st.dev.commitRefused t.dev (.dps d) (dpsKeys d) (dpsStatusKey d) (dpsCheck d (stage (dpsKeys d) st.dev))) ∧
    (∀ (g : Tile), st.dev.accepts p (tileIx g) 0x31 v.toNat false → gangCheck g (stage (gangKeys g) st.dev) ≠ 0 →
      ∃ t, exec (.gangCommit p g v) st = .next t ∧ t.pending = st.pending ∧
        st.dev.commitRefused t.dev (.gang g) (gangKeys g) (gangStatusKey g) (gangCheck g (stage (gangKeys g) st.dev))) ∧
    (∀ (s : Site), st.dev.accepts p (siteIx s) 0x0F v.toNat false →
      let c := siteCheck s (stage (siteKeys s) (st.dev.dropPend (.site s)))
      c ≠ 0 → ∃ t, exec (.siteCommit p s v) st = .next t ∧ t.pending = st.pending ∧
        st.dev.commitRefused t.dev (.site s) (siteKeys s) (siteStatusKey s) c) ∧
    (∀ (q : Quad), st.dev.accepts p (quadIx q) 0x16 v.toNat false → levelCheck q (stage (levelKeys q) st.dev) ≠ 0 →
      ∃ t e, exec (.levelCommit p q v) st = .next t ∧ t.pending = st.pending ∧
        st.dev.commitRefused e (.level q) (levelKeys q) (levelStatusKey q) (levelCheck q (stage (levelKeys q) st.dev)) ∧
        t.dev = { e with pins := { e.pins with strobes := st.dev.pins.strobes.filter fun r => r != q.val } }) ∧
    (∀ (c : Cluster), st.dev.accepts p (clusterIx c) 0x5E v.toNat false → acqCheck c (stage (acqKeys c) st.dev) ≠ 0 →
      ∃ t, exec (.acquisitionCommit p c v) st = .next t ∧ t.pending = st.pending ∧
        st.dev.commitRefused t.dev (.acq c) (acqKeys c) (acqStatusKey c) (acqCheck c (stage (acqKeys c) st.dev))) ∧
    (st.dev.accepts p 0x1600 0x0F v.toNat false → memoryCheck (stage memoryKeys st.dev) ≠ 0 →
      ∃ t, exec (.memoryCommit p v) st = .next t ∧ t.pending = st.pending ∧
        st.dev.commitRefused t.dev .memory memoryKeys (okey 0x1600 0x0E) (memoryCheck (stage memoryKeys st.dev))) ∧
    (st.dev.accepts p 0x1300 0x0F v.toNat false → thermalCheck (stage thermalKeys st.dev) ≠ 0 →
      ∃ t, exec (.thermalCommit p v) st = .next t ∧ t.pending = st.pending ∧
        st.dev.commitRefused t.dev .thermal thermalKeys (okey 0x1300 0x0E) (thermalCheck (stage thermalKeys st.dev))) ∧
    (∀ (h : Head), st.dev.accepts p (0x1810 + h) 0x1F v.toNat false → headCheck h (stage (headKeys h) st.dev) ≠ 0 →
      ∃ t, exec (.headSetupCommit p h v) st = .next t ∧ t.pending = st.pending ∧
        st.dev.commitRefused t.dev (.head h) (headKeys h) (headStatusKey h) (headCheck h (stage (headKeys h) st.dev)))

/-- An acquisition, thermal or raster head setup commit that passes its checks is active at once: every active copy has the
staged value, the status reads ACCEPTED and no commit of the block is pending; the acquisition's entries per capture are
computed anew. A pending timing commit of a quad whose site plays no pattern, passing its checks again, becomes active with
the values of its pending copy, and one that fails them is refused. Nothing else changes. -/
def Obligations.CommitsApplyAtOnce : Prop :=
  ∀ (st : State) (p : Port) (v : Byte), st.running →
    (∀ (c : Cluster), st.dev.accepts p (clusterIx c) 0x5E v.toNat false → acqCheck c (stage (acqKeys c) st.dev) = 0 →
      ∃ t, exec (.acquisitionCommit p c v) st = .next t ∧ t.pending = st.pending ∧
        st.dev.commitApplied t.dev (.acq c) (acqKeys c) (acqStatusKey c) st.dev.get [okey (clusterIx c) 0x69] ∧
        t.dev.o (clusterIx c) 0x69 = t.dev.acqEntries c) ∧
    (st.dev.accepts p 0x1300 0x0F v.toNat false → thermalCheck (stage thermalKeys st.dev) = 0 →
      ∃ t, exec (.thermalCommit p v) st = .next t ∧ t.pending = st.pending ∧
        st.dev.commitApplied t.dev .thermal thermalKeys (okey 0x1300 0x0E) st.dev.get []) ∧
    (∀ (h : Head), st.dev.accepts p (0x1810 + h) 0x1F v.toNat false → headCheck h (stage (headKeys h) st.dev) = 0 →
      ∃ t, exec (.headSetupCommit p h v) st = .next t ∧ t.pending = st.pending ∧
        st.dev.commitApplied t.dev (.head h) (headKeys h) (headStatusKey h) st.dev.get []) ∧
    (∀ (q : Quad), st.dev.quadPlays q = false → st.dev.pends (.timing q) = true →
      (timingCheck q st.dev = 0 → ∃ t, exec (.timingCommitApply q) st = .next t ∧ t.pending = st.pending ∧
        st.dev.commitApplied t.dev (.timing q) (timingKeys q) (timingStatusKey q) (fun k => st.dev.get (pkey k)) []) ∧
      (timingCheck q st.dev ≠ 0 → ∃ t, exec (.timingCommitApply q) st = .next t ∧ t.pending = st.pending ∧
        st.dev.commitRefused t.dev (.timing q) (timingKeys q) (timingStatusKey q) (timingCheck q st.dev)))

/-- A credit grant of n issues min(n, free space) credits and reads back as that number. A dequeue of n moves Rd by n and counts
the entries, and in MANUAL credit mode issues no credit. An enqueue of n entries moves W by n for n credits, counts them, and
opens the packet where bit 24 is set, else ends it. The resident count stays W minus Rd. The pointers' two copies agree
throughout. Every other queue, object, memory and event is as it was, but for the level event. -/
def Obligations.HostMovesQueuePointers : Prop :=
  ∀ (st : State) (p : Port) (n : BitVec 32), st.running →
    let d := st.dev
    let q := d.selected p
    (d.accepts p 0x1701 0x20 n.toNat (firmwareHeld q || d.grantForbidden q) →
      ∃ t, exec (.creditGrant p n) st = .next t ∧ t.pending = st.pending ∧
        d.OnlyKeys t.dev [qkey q 0x13, qkey q 0x19, qkey q 0x24] ∧
        t.dev.qo q 0x13 = d.qo q 0x13 + min n.toNat (d.freeSpace q) ∧
        t.dev.qo q 0x19 = (d.qo q 0x19 + min n.toNat (d.freeSpace q)) % 2 ^ 64 ∧
        t.dev.qo q 0x24 = min n.toNat (d.freeSpace q)) ∧
    (d.accepts p 0x1701 0x21 n.toNat (firmwareHeld q || d.dequeueForbidden q n.toNat) → d.copiesDiffer q = false →
      ∃ t, exec (.dequeue p n) st = .next t ∧ t.pending = st.pending ∧ d.queueFrame t.dev q ∧
        t.dev.qo q 0x11 = d.qo q 0x11 + n.toNat ∧ (t.dev.queueOf q).rd2 = d.qo q 0x11 + n.toNat ∧
        t.dev.qo q 0x12 = (d.qo q 0x10 - (d.qo q 0x11 + n.toNat)) % 2 ^ 32 ∧
        t.dev.qo q 0x17 = (d.qo q 0x17 + n.toNat) % 2 ^ 64 ∧ t.dev.qo q 0x10 = d.qo q 0x10 ∧
        (d.qact q 0x06 ≠ 1 → t.dev.qo q 0x13 = d.qo q 0x13 ∧ t.dev.qo q 0x19 = d.qo q 0x19)) ∧
    (d.accepts p 0x1701 0x22 n.toNat (firmwareHeld q || d.enqueueForbidden q n.toNat) → n.toNat % 2 ^ 24 ≠ 0 →
      d.copiesDiffer q = false →
      let m := n.toNat % 2 ^ 24
      ∃ t, exec (.enqueue p n) st = .next t ∧ t.pending = st.pending ∧ d.queueFrame t.dev q ∧
        t.dev.qo q 0x10 = d.qo q 0x10 + m ∧ (t.dev.queueOf q).w2 = d.qo q 0x10 + m ∧
        t.dev.qo q 0x12 = (d.qo q 0x10 + m - d.qo q 0x11) % 2 ^ 32 ∧ t.dev.qo q 0x11 = d.qo q 0x11 ∧
        t.dev.qo q 0x13 = d.qo q 0x13 - m ∧ t.dev.qo q 0x16 = (d.qo q 0x16 + m) % 2 ^ 64 ∧
        t.dev.qo q 0x1A = (d.qo q 0x1A + m) % 2 ^ 64 ∧
        t.dev.qo q 0x15 = (if bit n.toNat 24 then 1 else 0) ∧
        (bit n.toNat 24 = false → (t.dev.queueOf q).eop = d.qo q 0x10 + m ∧ (t.dev.queueOf q).eop2 = d.qo q 0x10 + m))

/-- An entry of a producer for a credit of the pool moves W by one and takes one outstanding credit, and its body of 16 bytes
stands in the cluster SRAM of a queue placed there, or its body of 64 bytes as a best-effort write to the entry's burst in
the write queue of its subchannel, whose oldest leaves where its part is full. In SRAM every byte outside the entry's 16 is
as it was. While the tile's memory takes no accesses, or an earlier entry waits, the entry waits with its credit reserved
(log entry 120: the model's choice) and nothing else changes. Without a credit, for a queue of class FQ or AQ, or while the
queue is disabled, nothing changes. -/
def Obligations.EntryEnqueuedAdvancesW : Prop :=
  ∀ (st : State) (q : QueueNo) (eop : Bool) (entry : List Byte), st.running →
    (st.dev.foreignProducer q = false ∨ st.dev.canReserve q 1 = false → exec (.entryEnqueued q eop entry) st = .next st) ∧
    (st.dev.foreignProducer q = true → st.dev.canReserve q 1 = true → 0 < st.dev.outstanding q → st.dev.copiesDiffer q = false →
      let a := st.dev.entryAt q (st.dev.qo q 0x10)
      let j := st.dev.addrSub (64 * (a / 64))
      let room := ((st.dev.subOf j).writes.filter fun y => y.rt == false).length < 48
      ∃ t, exec (.entryEnqueued q eop entry) st = .next t ∧ t.pending = st.pending ∧
       (((st.dev.queueOf q).waiting ≠ [] ∨ st.dev.bodyTakes q = false →
        t.dev = { st.dev with mem := { st.dev.mem with queue := t.dev.mem.queue } } ∧
        t.dev.queueOf q = { st.dev.queueOf q with reserved := (st.dev.queueOf q).reserved + 1,
                                                  waiting := (st.dev.queueOf q).waiting ++ [(entry, eop, none)] } ∧
        ∀ r, r ≠ q.val → t.dev.queueOf r = st.dev.queueOf r) ∧
       ((st.dev.queueOf q).waiting = [] → st.dev.bodyTakes q = true →
        t.dev = { st.dev with
          objs := t.dev.objs, mem := t.dev.mem, power := t.dev.power
          ring := { st.dev.ring with bulkDone := t.dev.ring.bulkDone, queued := t.dev.ring.queued }
          event := { st.dev.event with raised := t.dev.event.raised, snap := t.dev.event.snap } } ∧
        (t.dev.queueOf q).waiting = [] ∧
        t.dev.qo q 0x10 = st.dev.qo q 0x10 + 1 ∧ t.dev.qo q 0x13 = st.dev.qo q 0x13 - 1 ∧
        t.dev.qo q 0x15 = (if eop then 0 else 1) ∧ (t.dev.queueOf q).reserved = (st.dev.queueOf q).reserved ∧
        (∀ r, r ≠ q.val → t.dev.queueOf r = st.dev.queueOf r) ∧
        (st.dev.queuePlacement q ≠ 0 ∨
            st.dev.powerState (addrTile (64 * (a / 64))) ≠ 5 ∧ st.dev.dormantHeld (addrTile (64 * (a / 64))) = false ∧
              room →
          t.dev.power = st.dev.power ∧ t.dev.ring = st.dev.ring ∧ st.dev.sameBut t.dev
            (okey (0x1710 + queueTile q) 0x01 :: okey 0x1700 0x04 :: (List.range 0x25).map (qkey q))) ∧
        (st.dev.queuePlacement q = 0 →
          t.dev.mem.sram = st.dev.mem.sram ∧ ∃ l, (t.dev.subOf j).writes =
              l ++ [⟨a / 64, ((entry ++ List.replicate 64 0).take 64).map some, false, 3, true, 0⟩] ∧
            (room → l = (st.dev.subOf j).writes ∧ t.dev.mem.sdram = st.dev.mem.sdram)) ∧
        (st.dev.queuePlacement q ≠ 0 → t.dev.mem.sdram = st.dev.mem.sdram ∧
          (∀ i < 16, t.dev.sramByte (a + i) = (entry ++ List.replicate 16 0).getD i 0) ∧
          ∀ k, k < a ∨ a + 16 ≤ k → t.dev.sramByte k = st.dev.sramByte k))))

/-- A flush of an enabled queue with no packet open discards every resident entry at once: Rd becomes W and the discarded entries
are counted; with a packet open it waits, the state shows it, and the entries stay. At a fixed flush point the entries before
it are discarded and Rd stands there. Where a context fails parity, the queue is reset: W, Rd and the last EOP are 0 in both
copies, the resident entries count as discarded, the reset and its cause are recorded and the tile's source is raised. A copy
that takes another value changes nothing else; at the next update, here a dequeue, a queue whose copies differ is reset with
the other cause. No other queue changes. -/
def Obligations.QueuesFlushAndReset : Prop :=
  ∀ (st : State), st.running →
    (∀ (p : Port) (v : Byte), let d := st.dev
      let q := d.selected p
      d.accepts p 0x1701 0x23 v.toNat (firmwareHeld q || false) → d.queueEnabled q = true → (d.queueOf q).flushAsked = false →
      (d.queueOf q).disabling = false → d.copiesDiffer q = false → d.qo q 0x11 ≤ d.qo q 0x10 →
      ∃ t, exec (.flush p v) st = .next t ∧ t.pending = st.pending ∧ d.queueFrame t.dev q ∧
        (d.qo q 0x15 ≠ 0 → d.OnlyKeys { t.dev with mem := d.mem } [qkey q 0x14] ∧ t.dev.qo q 0x14 = 2 ∧
          t.dev.queueOf q = { d.queueOf q with flushAsked := true, flushHost := true }) ∧
        (d.qo q 0x15 = 0 → t.dev.qo q 0x11 = d.qo q 0x10 ∧ t.dev.qo q 0x10 = d.qo q 0x10 ∧ t.dev.qo q 0x14 = 1 ∧
          (t.dev.queueOf q).flushAsked = false ∧ (t.dev.queueOf q).flushAt = none ∧
          (d.qo q 0x11 < d.qo q 0x10 → t.dev.qo q 0x12 = 0 ∧
            t.dev.qo q 0x18 = (d.qo q 0x18 + (d.qo q 0x10 - d.qo q 0x11)) % 2 ^ 64))) ∧
    (∀ (q : QueueNo) (point : Nat), (st.dev.queueOf q).flushAt = some point → (st.dev.queueOf q).disabling = false →
      st.dev.copiesDiffer q = false → st.dev.qo q 0x11 < point →
      ∃ t, exec (.flushPoint q) st = .next t ∧ t.pending = st.pending ∧ st.dev.queueFrame t.dev q ∧
        t.dev.qo q 0x11 = point ∧ t.dev.qo q 0x10 = st.dev.qo q 0x10 ∧ t.dev.qo q 0x14 = 1 ∧
        t.dev.qo q 0x18 = (st.dev.qo q 0x18 + (point - st.dev.qo q 0x11)) % 2 ^ 64 ∧ (t.dev.queueOf q).flushAt = none) ∧
    (∀ (q : QueueNo),
      ∃ t, exec (.queueReset q .parity) st = .next t ∧ t.pending = st.pending ∧
        t.dev = { st.dev with objs := t.dev.objs,
                              mem := { st.dev.mem with queue := t.dev.mem.queue, poisonSeen := t.dev.mem.poisonSeen },
                              event := { st.dev.event with raised := t.dev.event.raised, snap := t.dev.event.snap } } ∧
        (∀ r, r ≠ q.val → t.dev.queueOf r = st.dev.queueOf r) ∧
        st.dev.sameBut t.dev (okey 0x1700 0x03 :: (List.range 0x25).map (qkey q)) ∧
        t.dev.qo q 0x10 = 0 ∧ t.dev.qo q 0x11 = 0 ∧ (t.dev.queueOf q).w2 = 0 ∧ (t.dev.queueOf q).rd2 = 0 ∧
        (t.dev.queueOf q).eop = 0 ∧ (t.dev.queueOf q).eop2 = 0 ∧ t.dev.qo q 0x12 = 0 ∧ t.dev.qo q 0x15 = 0 ∧
        t.dev.qo q 0x18 = (st.dev.qo q 0x18 + st.dev.qo q 0x12) % 2 ^ 64 ∧
        t.dev.qo q 0x1F = 2 ∧ ∃ x, t.dev.event.raised = st.dev.event.raised ++ [x] ∧ x.src = tileSource (queueTile q) 1) ∧
    (∀ (q : QueueNo) (which : Fin 3) (v : BitVec 64),
      ∃ t, exec (.queueReset q (.copy which v)) st = .next t ∧ t.pending = st.pending ∧
        t.dev = { st.dev with mem := { st.dev.mem with queue := t.dev.mem.queue } } ∧
        (∀ r, r ≠ q.val → t.dev.queueOf r = st.dev.queueOf r) ∧
        t.dev.queueOf q = { st.dev.queueOf q with
          w2 := if which.val = 0 then v.toNat else (st.dev.queueOf q).w2,
          rd2 := if which.val = 1 then v.toNat else (st.dev.queueOf q).rd2,
          eop2 := if which.val = 2 then v.toNat else (st.dev.queueOf q).eop2 }) ∧
    (∀ (p : Port) (n : BitVec 32), let q := st.dev.selected p
      st.dev.accepts p 0x1701 0x21 n.toNat (firmwareHeld q || st.dev.dequeueForbidden q n.toNat) → st.dev.copiesDiffer q = true →
      ∃ t, exec (.dequeue p n) st = .next t ∧ t.pending = st.pending ∧ t.dev.qo q 0x10 = 0 ∧ t.dev.qo q 0x11 = 0 ∧
        t.dev.copiesDiffer q = false ∧ t.dev.qo q 0x1F = 1 ∧ t.dev.qo q 0x1D = min (st.dev.qo q 0x1D + 1) (2 ^ 32 - 1) ∧
        ∀ r, r ≠ q → t.dev.queueOf r = st.dev.queueOf r)

/-- A commit of the selected queue that its checks refuse shows their code, leaves the active settings and discards the pending
copy. One with a size that passes them makes the staged settings active and enables a disabled queue with its pointers and
its counts of entries and credits at 0 and no packet open; with a size of 0 a queue that is disabled already takes the
settings and stays disabled. Any new commit discards a disable that waits, with its flush; a flush that the host asked for
itself stands (log entry 111: the model's choice). -/
def Obligations.QueueCommitEnables : Prop :=
  ∀ (st : State) (p : Port) (v : Byte), st.running →
    let d := st.dev
    let q := d.selected p
    let c := queueCheck q (stage (queueKeys q) d)
    let c' := queueCheck q (stage (queueKeys q) (cancelDisable q d))
    q < 262144 → d.accepts p 0x1701 0x0F v.toNat (firmwareHeld q || false) →
    ((d.queueOf q).disabling = true → c' ≠ 0 → ∃ t, exec (.queueCommit p v) st = .next t ∧ t.pending = st.pending ∧
      t.dev.get (queueStatusKey q) = c' ∧ (t.dev.queueOf q).disabling = false ∧
      t.dev.qo q 0x14 = (if (d.queueOf q).flushHost then 2 else 1) ∧
      (t.dev.queueOf q).flushAsked = ((d.queueOf q).flushHost && (d.queueOf q).flushAsked)) ∧
    ((d.queueOf q).disabling = false → c ≠ 0 → ∃ t, exec (.queueCommit p v) st = .next t ∧ t.pending = st.pending ∧
      d.commitRefused t.dev (.queue q) (queueKeys q) (queueStatusKey q) c) ∧
    ((d.queueOf q).disabling = false → c = 0 → d.queueEnabled q = false → d.qo q 0x04 ≠ 0 →
      ∃ t, exec (.queueCommit p v) st = .next t ∧ t.pending = st.pending ∧
        (∀ k ∈ queueKeys q, t.dev.get (akey k) = d.get k) ∧ t.dev.get (queueStatusKey q) = codeAccepted ∧
        t.dev.pends (.queue q) = false ∧ t.dev.qo q 0x10 = 0 ∧ t.dev.qo q 0x11 = 0 ∧ t.dev.qo q 0x12 = 0 ∧
        t.dev.qo q 0x14 = 1 ∧ t.dev.qo q 0x15 = 0 ∧ (t.dev.queueOf q).reserved = 0 ∧ t.dev.qo q 0x16 = 0 ∧
        (d.qo q 0x06 ≠ 1 → t.dev.qo q 0x13 = 0) ∧ (d.qo q 0x06 = 1 → t.dev.qo q 0x13 = d.qo q 0x04) ∧
        t.dev = { d with objs := t.dev.objs, pend := t.dev.pend,
                         mem := { d.mem with queue := t.dev.mem.queue, poisonSeen := t.dev.mem.poisonSeen },
                         ledger := { d.ledger with base := t.dev.ledger.base } }) ∧
    ((d.queueOf q).disabling = false → c = 0 → d.queueEnabled q = false → d.qo q 0x04 = 0 →
      ∃ t, exec (.queueCommit p v) st = .next t ∧ t.pending = st.pending ∧
        (∀ k ∈ queueKeys q, t.dev.get (akey k) = d.get k) ∧ t.dev.get (queueStatusKey q) = codeAccepted ∧
        t.dev.pends (.queue q) = false ∧ t.dev.queueEnabled q = false ∧ t.dev.qo q 0x13 = 0)

/-- A training request while training runs is refused with 2; a retrain or release while a grant is held with 3; any of them with
no populated channel with 4; a refusal changes nothing else. An accepted one reads 1: TRAIN takes every populated channel
that is not READY into training and RETRAIN every populated one, each at step 1, with the progress at 0; RELEASE returns
every populated channel to UNTRAINED. The contents of the channels concerned are lost: their bytes read as never written;
every byte of another channel is as it was. -/
def Obligations.TrainingRequests : Prop :=
  ∀ (st : State) (p : Port), st.running →
    let d := st.dev
    let lost (e : Device) (ks : List Nat) : Prop :=
      ∀ a < 2 ^ 39, (d.addrChan a ∈ ks → e.sdramByte a = Config.unwrittenByte a) ∧ (d.addrChan a ∉ ks → e.sdramByte a = d.sdramByte a)
    (d.accepts p 0x1600 0x10 1 false →
      (d.trainingRuns = true → ∃ t, exec (.train p) st = .next t ∧ t.pending = st.pending ∧
        d.OnlyKeys t.dev [okey 0x1600 0x14] ∧ t.dev.o 0x1600 0x14 = 2) ∧
      (d.trainingRuns = false → d.anyPopulated = false → ∃ t, exec (.train p) st = .next t ∧ t.pending = st.pending ∧
        d.OnlyKeys t.dev [okey 0x1600 0x14] ∧ t.dev.o 0x1600 0x14 = 4) ∧
      (d.trainingRuns = false → d.anyPopulated = true →
        let ks := (List.range 16).filter fun k => d.populated k && d.chanState k != 3
        ∃ t, exec (.train p) st = .next t ∧ t.pending = st.pending ∧ t.dev.o 0x1600 0x14 = 1 ∧ t.dev.o 0x1600 0x13 = 0 ∧
          (∀ k ∈ ks, t.dev.chanState k = 2 ∧ Cells.read 0 k t.dev.mem.trainStep = 1) ∧
          (∀ k < 16, d.chanState k = 3 → t.dev.chanState k = 3) ∧ lost t.dev ks)) ∧
    (d.accepts p 0x1600 0x10 2 false →
      (d.trainingRuns = true → ∃ t, exec (.retrain p) st = .next t ∧ t.pending = st.pending ∧
        d.OnlyKeys t.dev [okey 0x1600 0x14] ∧ t.dev.o 0x1600 0x14 = 2) ∧
      (d.trainingRuns = false → d.grantHeld = true → ∃ t, exec (.retrain p) st = .next t ∧ t.pending = st.pending ∧
        d.OnlyKeys t.dev [okey 0x1600 0x14] ∧ t.dev.o 0x1600 0x14 = 3) ∧
      (d.trainingRuns = false → d.grantHeld = false → d.anyPopulated = false → ∃ t, exec (.retrain p) st = .next t ∧
        t.pending = st.pending ∧ d.OnlyKeys t.dev [okey 0x1600 0x14] ∧ t.dev.o 0x1600 0x14 = 4) ∧
      (d.trainingRuns = false → d.grantHeld = false → d.anyPopulated = true →
        let ks := (List.range 16).filter d.populated
        ∃ t, exec (.retrain p) st = .next t ∧ t.pending = st.pending ∧ t.dev.o 0x1600 0x14 = 1 ∧ t.dev.o 0x1600 0x13 = 0 ∧
          (∀ k ∈ ks, t.dev.chanState k = 2 ∧ Cells.read 0 k t.dev.mem.trainStep = 1) ∧ lost t.dev ks)) ∧
    (d.accepts p 0x1600 0x10 3 false →
      (d.trainingRuns = true → ∃ t, exec (.release p) st = .next t ∧ t.pending = st.pending ∧
        d.OnlyKeys t.dev [okey 0x1600 0x14] ∧ t.dev.o 0x1600 0x14 = 2) ∧
      (d.trainingRuns = false → d.grantHeld = true → ∃ t, exec (.release p) st = .next t ∧ t.pending = st.pending ∧
        d.OnlyKeys t.dev [okey 0x1600 0x14] ∧ t.dev.o 0x1600 0x14 = 3) ∧
      (d.trainingRuns = false → d.grantHeld = false → d.anyPopulated = false → ∃ t, exec (.release p) st = .next t ∧
        t.pending = st.pending ∧ d.OnlyKeys t.dev [okey 0x1600 0x14] ∧ t.dev.o 0x1600 0x14 = 4) ∧
      (d.trainingRuns = false → d.grantHeld = false → d.anyPopulated = true →
        ∃ t, exec (.release p) st = .next t ∧ t.pending = st.pending ∧ t.dev.o 0x1600 0x14 = 1 ∧
          (∀ k < 16, d.populated k = true → t.dev.chanState k = 1) ∧ lost t.dev (List.range 16)))

/-- A training step that succeeds takes its channel to the next step and counts; the last makes it READY, and step 11 its
contents zero; one that fails leaves it FAILED with the step's number. Read data marks the oldest issued read of the retry
buffer that has none, or, with none there, ends the oldest replayed read that waits. A corrected read counts, records its
address and cause 1; an uncorrectable one counts, records address and cause, poisons the burst and breaks the memory
guarantee; a clean one changes nothing else. The first ALERT_n of a subchannel stops its issue and is counted once. -/
def Obligations.TrainingStepsAndReads : Prop :=
  ∀ (st : State), st.running →
    let d := st.dev
    (∀ (k : MemCh) (ok : Bool), let n := Cells.read 0 k d.mem.trainStep
      n ≠ 0 → d.chanState k = 2 → bit d.mem.trainShort k = false →
      ∃ t, exec (.trainingStepDone k ok) st = .next t ∧ t.pending = st.pending ∧
        (ok = true → n < d.mem.trainLast → Cells.read 0 k t.dev.mem.trainStep = n + 1 ∧ t.dev.chanState k = 2 ∧
          t.dev.o 0x1600 0x13 = (d.o 0x1600 0x13 + 1) % 2 ^ 64) ∧
        (ok = true → d.mem.trainLast ≤ n → Cells.read 0 k t.dev.mem.trainStep = 0 ∧ t.dev.chanState k = 3 ∧
          t.dev.o (0x1610 + k) 0x04 = 0 ∧ (n = 11 → ∀ a, d.addrChan a = k.val → t.dev.sdramByte a = 0)) ∧
        (ok = false → Cells.read 0 k t.dev.mem.trainStep = 0 ∧ t.dev.chanState k = 4 ∧ t.dev.o (0x1610 + k) 0x04 = n)) ∧
    (∀ (j : SubCh) (addr : BitVec 39) (scrub : Bool), let k := j.val / 2
      let x := d.subOf j
      let waits (c : Cmd) : Bool := c.kind == .read false && !c.skipped
      let arrived (e : Device) : Prop :=
        (x.retry.any waits = true → ∃ n c, x.retry[n]? = some c ∧ waits c = true ∧
          (∀ m < n, ∀ c', x.retry[m]? = some c' → waits c' = false) ∧
          e.subOf j = { x with retry := x.retry.set n { c with kind := .read true } } ∧
          e.o (0x1620 + j) 0x0C = d.o (0x1620 + j) 0x0C) ∧
        (x.retry.any waits = false → e.subOf j = { x with replay := x.replay.eraseIdx (x.replay.findIdx waits) } ∧
          e.o (0x1620 + j) 0x0C = min 65535 (e.subOf j).replay.length) ∧
        ∀ i, i ≠ j.val → e.subOf i = d.subOf i
      (∃ t, exec (.sdramReadData j addr .clean scrub) st = .next t ∧ t.pending = st.pending ∧ arrived t.dev ∧
        t.dev = { d with objs := t.dev.objs, mem := { d.mem with sub := t.dev.mem.sub } } ∧
        d.sameBut t.dev [okey (0x1620 + j) 0x0C]) ∧
      (∃ t, exec (.sdramReadData j addr .corrected scrub) st = .next t ∧ t.pending = st.pending ∧
        t.dev = { d with objs := t.dev.objs, event := { d.event with raised := t.dev.event.raised, snap := t.dev.event.snap },
                         mem := { d.mem with sub := t.dev.mem.sub } } ∧ arrived t.dev ∧
        d.sameBut t.dev (okey (0x1620 + j) 0x0C :: [0x05, 0x07, 0x08, 0x0C].map (okey (0x1610 + k))) ∧
        t.dev.o (0x1610 + k) 0x05 = (d.o (0x1610 + k) 0x05 + 1) % 2 ^ 64 ∧ t.dev.o (0x1610 + k) 0x07 = addr.toNat ∧
        t.dev.o (0x1610 + k) 0x08 = 1 ∧ bit (t.dev.o (0x1610 + k) 0x0C) 0 = true ∧
        ∃ x, t.dev.event.raised = d.event.raised ++ [x] ∧ x.src = 32 + k) ∧
      (∃ t, exec (.sdramReadData j addr .uncorrectable scrub) st = .next t ∧ t.pending = st.pending ∧
        t.dev = { d with objs := t.dev.objs, event := { d.event with raised := t.dev.event.raised, snap := t.dev.event.snap },
                         mem := { d.mem with sub := t.dev.mem.sub, sdramPoison := t.dev.mem.sdramPoison, memError := true } } ∧
        arrived t.dev ∧
        d.sameBut t.dev (okey 0x1780 0x01 :: okey (0x1620 + j) 0x0C :: [0x06, 0x07, 0x08, 0x0C].map (okey (0x1610 + k))) ∧
        t.dev.o (0x1610 + k) 0x06 = (d.o (0x1610 + k) 0x06 + 1) % 2 ^ 64 ∧ t.dev.o (0x1610 + k) 0x07 = addr.toNat ∧
        t.dev.o (0x1610 + k) 0x08 = (if scrub then 3 else 2) ∧ bit (t.dev.o 0x1780 0x01) 2 = false ∧
        ∀ b, b ∈ t.dev.mem.sdramPoison ↔ b = addr.toNat / 64 ∨ b ∈ d.mem.sdramPoison)) ∧
    (∀ (j : SubCh), let k := j.val / 2
      ((d.subOf j).alert = true → exec (.alertN j) st = .next st) ∧
      ((d.subOf j).alert = false → ∃ t, exec (.alertN j) st = .next t ∧ t.pending = st.pending ∧
        t.dev.subOf j = { d.subOf j with alert := true } ∧ t.dev.issueStopped j = true ∧
        t.dev.o (0x1610 + k) 0x09 = min (d.o (0x1610 + k) 0x09 + 1) (2 ^ 32 - 1) ∧
        t.dev = { d with objs := t.dev.objs, event := { d.event with raised := t.dev.event.raised, snap := t.dev.event.snap },
                         mem := { d.mem with sub := t.dev.mem.sub } } ∧
        d.sameBut t.dev [okey (0x1610 + k) 0x09, okey (0x1610 + k) 0x0C] ∧ ∀ i, i ≠ j.val → t.dev.subOf i = d.subOf i))

/-- After a slot the next of the 2,048 is present. On a READY channel a slot that is skipped while issue is stopped counts as
lost, and every slot but a repair slot is skipped; a granted slot, skipped or not, whose owner has a request ready is used
and counted, one whose owner has none is idle. That a skipped granted slot counts by what it would have carried is the
model's choice (log entry 53). REPLAY ends ALERT_n: the retry buffer's commands but the reads that have their data are to be
replayed, then what an earlier replay left, then the skipped ones; those without success that have been replayed three times
are dropped, count, set cause 4 and break the memory guarantee, which of them failed being the sender's word (log entry 48:
the model's choice); without ALERT_n it changes nothing. A disturbance window's end clears its activations and doubles the
weight of a requester that did not cross, up to the configured one. -/
def Obligations.SlotsAndReplay : Prop :=
  ∀ (st : State) (j : SubCh), st.running →
    let d := st.dev
    let x := d.subOf j
    let frame (e : Device) : Prop :=
      e = { d with
        objs := e.objs, power := e.power
        sites := { d.sites with stream := e.sites.stream }
        ring := { d.ring with bulkDone := e.ring.bulkDone, queued := e.ring.queued }
        event := { d.event with raised := e.event.raised, snap := e.event.snap }
        mem := { d.mem with
          sub := e.mem.sub, sdram := e.mem.sdram, sdramPoison := e.mem.sdramPoison, sdramWritten := e.mem.sdramWritten
          memError := e.mem.memError, trainStep := e.mem.trainStep, trainShort := e.mem.trainShort } } ∧
      ∀ i, i ≠ j.val → e.subOf i = d.subOf i
    (∀ (use : SlotUse), let cls := ((d.slotTable j).getD x.slotPos (0, 0)).1
      let owner := ((d.slotTable j).getD x.slotPos (0, 0)).2
      ∃ t, exec (.slot j use) st = .next t ∧ t.pending = st.pending ∧ frame t.dev ∧
      (t.dev.subOf j).slotPos = (x.slotPos + 1) % 2048 ∧
      (d.chanState (j / 2) = 3 → d.issueStopped j = true → x.alert = true ∨ cls ≠ 2 →
        t.dev.o (0x1610 + j / 2) 0x0F = (d.o (0x1610 + j / 2) 0x0F + 1) % 2 ^ 64 ∧ t.dev.mem.sdram = d.mem.sdram) ∧
      (d.chanState (j / 2) ≠ 3 → t.dev.mem.sdram = d.mem.sdram) ∧
      (cls < 3 → (t.dev.subOf j).used = x.used ∧ (t.dev.subOf j).idle = x.idle) ∧
      (3 ≤ cls →
        ((d.ownerCmd j cls owner use).isSome = true → (t.dev.subOf j).used = x.used + 1 ∧ (t.dev.subOf j).idle = x.idle ∧
          t.dev.o (0x1620 + j) 0x08 = (d.o (0x1620 + j) 0x08 + 1) % 2 ^ 64) ∧
        ((d.ownerCmd j cls owner use).isSome = false → (t.dev.subOf j).idle = x.idle + 1 ∧ (t.dev.subOf j).used = x.used ∧
          t.dev.o (0x1620 + j) 0x09 = (d.o (0x1620 + j) 0x09 + 1) % 2 ^ 64))) ∧
    (∀ (failed : Nat), x.alert = false → exec (.replay j failed) st = .next st) ∧
    (∀ (failed : Nat), x.alert = true → let back := x.retry.filter fun c => c.kind != .read true
      let kept := dropDead failed back
      let f := back.length - kept.length
      ∃ t, exec (.replay j failed) st = .next t ∧ t.pending = st.pending ∧ frame t.dev ∧
        t.dev.subOf j = { x with alert := false, retry := [], replay := kept ++ x.replay ++ x.skipped, skipped := [] } ∧
        t.dev.mem.sdram = d.mem.sdram ∧
        t.dev.o (0x1620 + j) 0x0C = min 65535 (kept.length + x.replay.length + x.skipped.length) ∧
        (f ≠ 0 → t.dev.o (0x1610 + j / 2) 0x0B = min (d.o (0x1610 + j / 2) 0x0B + f) (2 ^ 32 - 1) ∧
          t.dev.o (0x1610 + j / 2) 0x08 = 4 ∧ bit (t.dev.o 0x1780 0x01) 2 = false)) ∧
    (∃ t, exec (.disturbanceWindowEnd j) st = .next t ∧ t.pending = st.pending ∧ frame t.dev ∧
      t.dev.subOf j = { x with acts := [], rows := [], crossed := 0 } ∧ t.dev.mem.sdram = d.mem.sdram ∧
      d.sameBut t.dev [okey (0x1620 + j) 0x0D] ∧
      ∀ r < 8, t.dev.curWeight j r =
        if bit x.crossed r then d.curWeight j r else min (d.o 0x1600 (0x18 + r)) (2 * d.curWeight j r) % 256)

/-- A memory commit that passes its checks makes its settings active and reads ACCEPTED, and no byte of SDRAM is listed, none
poisoned and no channel zero-filled any more (that its contents are lost is the model's choice, log entry 49). At a table-
period boundary with no change of primacy and no head or acquisition waiting for it, released grants are gone, every other is
in force, the period is counted, and every subchannel shows the slots in force and starts a new count, the old one with every
granted slot not shown in use as idle (log entry 53: the model's choice). -/
def Obligations.MemoryPlacesAndGrantsComeIntoForce : Prop :=
  ∀ (st : State), st.running →
    let d := st.dev
    (∀ (p : Port) (v : Byte), d.accepts p 0x1600 0x0F v.toNat false → memoryCheck (stage memoryKeys d) = 0 →
      ∃ t, exec (.memoryCommit p v) st = .next t ∧ t.pending = st.pending ∧
        (∀ k ∈ memoryKeys, t.dev.get (akey k) = d.get k) ∧ t.dev.o 0x1600 0x0E = codeAccepted ∧ t.dev.pends .memory = false ∧
        t.dev.mem.sdram = [] ∧ t.dev.mem.sdramPoison = [] ∧ t.dev.mem.zeroFilled = 0 ∧ t.dev.mem.sram = d.mem.sram ∧
        (∀ k < 16, d.o (0x1610 + k) 0x01 = 0 → t.dev.chanState k = 0) ∧
        ∀ g < 8, t.dev.o (0x1640 + g) 0x01 = (if d.o (0x1610 + 2 * g) 0x01 = 0 then 0 else 2) +
          if d.o (0x1610 + (2 * g + 1)) 0x01 = 0 then 0 else 2) ∧
    (d.boot.pendingPrimacy = none → (∀ h < 2, d.headState h ≠ headAdmitting) → (∀ c < 32, d.acqState c ≠ acqAdmitting) →
      ∃ t, exec .tablePeriodBoundary st = .next t ∧ t.pending = st.pending ∧
        t.dev.mem.grants = (d.mem.grants.filter fun g => !g.released).map (fun g => { g with inForce := true }) ∧
        t.dev.mem.period = d.mem.period + 1 ∧
        (∀ j < 32, t.dev.o (0x1620 + j) 0x03 = t.dev.inForce 3 j ∧ t.dev.o (0x1620 + j) 0x04 = t.dev.inForce 4 j ∧
          t.dev.o (0x1620 + j) 0x05 = t.dev.inForce 5 j ∧ (t.dev.subOf j).slotPos = 0 ∧
          (t.dev.subOf j).lastUsed = (d.subOf j).used ∧ (t.dev.subOf j).lastIdle = max (d.subOf j).idle ((d.subOf j).granted - (d.subOf j).used) ∧
          (t.dev.subOf j).lastGranted = (d.subOf j).granted) ∧
        t.dev.mem.sdram = d.mem.sdram)

/-- An enable of a head that is not enabled is refused with its reason, state REFUSED and nothing else changed, or admits it:
ADMITTING, or LOCK-WAIT for a locked head 1, with its share of slots granted and a lease token for each layer of its frame
block; an enabled head is left as it is. A disable of an enabled head stops it at once: DISABLED, its channels at DZ, no
lease held, no slot share, and its grants released. Its frame commit that waits is then at its boundary; that of a locked
head 1 waits on for an enabled head 0. -/
def Obligations.HeadsStartAndStop : Prop :=
  ∀ (st : State) (p : Port) (h : Head), st.running →
    let d := st.dev
    (d.accepts p (0x1810 + h) 0x20 1 false →
      (d.headEnabled h = true → exec (.headEnable p h) st = .next st) ∧
      (d.headEnabled h = false → d.enableRefusal h ≠ 0 → ∃ t, exec (.headEnable p h) st = .next t ∧ t.pending = st.pending ∧
        d.OnlyKeys t.dev [okey (0x1810 + h) 0x21, okey (0x1810 + h) 0x22] ∧ t.dev.headState h = headRefused ∧
        t.dev.o (0x1810 + h) 0x22 = d.enableRefusal h) ∧
      (d.headEnabled h = false → d.enableRefusal h = 0 → ∃ t, exec (.headEnable p h) st = .next t ∧ t.pending = st.pending ∧
        t.dev.headState h = (if h.val = 1 ∧ d.headLocked = true then headLockWait else headAdmitting) ∧
        t.dev.o (0x1810 + h) 0x22 = 0 ∧ t.dev.o (0x1810 + h) 0x24 = d.headShare h ∧
        (t.dev.headOf h).leases = d.frameLeases h (d.act (0x1830 + h)) true ∧ (t.dev.headOf h).starting = true ∧
        (d.headShare h ≠ 0 → t.dev.mem.grants = d.mem.grants ++
          [⟨5, headOwner h, (d.headSubs h).map fun j => (j, d.headShare h), false, false⟩]) ∧
        t.dev.pins = d.pins ∧ ∀ k, k ≠ h.val → t.dev.headOf k = d.headOf k)) ∧
    (d.accepts p (0x1810 + h) 0x20 2 false → d.headEnabled h = true → ¬(h.val = 0 ∧ d.headLocked = true ∧ d.headEnabled 1 = true) →
      ∃ t, exec (.headDisable p h) st = .next t ∧ t.pending = st.pending ∧ t.dev.headState h = headDisabledState ∧
        (t.dev.headOf h).leases = [] ∧ (t.dev.headOf h).starting = false ∧ (t.dev.headOf h).lines = [] ∧
        t.dev.o (0x1810 + h) 0x24 = 0 ∧ (∀ q ∈ d.headQuads h, ∀ n ∈ quadChans q, t.dev.pinOf n = Pin.init) ∧
        (∀ n, (∀ q ∈ d.headQuads h, n ∉ quadChans q) → t.dev.pinOf n = d.pinOf n) ∧
        (∀ g ∈ t.dev.mem.grants, g.owner = headOwner h → g.released = true) ∧
        (h.val = 0 ∨ d.headLocked = false ∨ d.headEnabled 0 = false → t.dev.pends (.frame h) = false) ∧
        (h.val = 1 → d.headLocked = true → d.headEnabled 0 = true → t.dev.pends (.frame h) = d.pends (.frame h)) ∧
        t.dev.mem.sdram = d.mem.sdram ∧
        ∀ k, k ≠ h.val → k ∉ d.frameGroup h ∨ d.pends (.frame k) = false → t.dev.headOf k = d.headOf k)

/-- With no latch instant due, a frame commit that fails the checks of a head it commits (both, of a locked pair) reads their
code and leaves every active frame block; one that passes them is active at once where none of those heads is enabled, and
else waits, PENDING, for all of them, with a token not in force yet for each new layer of an enabled head. At a latch instant
whose frame had all its lines fetched, in the locked pair's other head too, the next frame begins with no line fetched, the
frame just shown is kept for its record, its number counted, the instant moves on by one frame, and a frame block that waited
and passes its checks again, with the pair's other one, is active. -/
def Obligations.FrameCommitsAndLatches : Prop :=
  ∀ (st : State) (h : Head), st.running →
    let d := st.dev
    (∀ (p : Port) (v : Byte), d.accepts p (0x1830 + h) 0x0F v.toNat (d.frameForbidden h) →
      (∀ g ∈ d.frameGroup h, d.latchReached g = false) →
      let c := d.groupCheck (d.frameGroup h)
      ∃ t, exec (.frameCommit p h v) st = .next t ∧ t.pending = st.pending ∧ t.dev.mem.sdram = d.mem.sdram ∧
        t.dev.get (frameStatusKey h) =
          (if c ≠ 0 then c else if (d.frameGroup h).any d.headEnabled then codePending else codeAccepted) ∧
        (∀ g ∈ d.frameGroup h, t.dev.pends (.frame g) = (decide (c = 0) && (d.frameGroup h).any d.headEnabled)) ∧
        (∀ g ∈ d.frameGroup h, ∀ k ∈ frameKeys g,
          t.dev.get (akey k) = (if c = 0 ∧ (d.frameGroup h).any d.headEnabled = false then d.get k else d.get (akey k))) ∧
        (c = 0 → (d.frameGroup h).any d.headEnabled = true → ∀ g ∈ d.frameGroup h,
          (∀ k ∈ frameKeys g, t.dev.get (pkey k) = d.get k) ∧
          (d.headEnabled g = true → (t.dev.headOf g).leases = ((d.headOf g).leases.filter fun l => l.inForce) ++
            t.dev.frameLeases g (t.dev.o (0x1830 + g)) false))) ∧
    (∀ x, x = d.headOf h → d.headState h = headRunning → d.reached x.nextLatch = true → d.fetching h = false →
      (d.headLocked = true → d.latchReached (1 - h) = true → d.fetching (1 - h) = false) →
      ∃ t, exec (.latchInstant h) st = .next t ∧ t.pending = st.pending ∧
        (t.dev.headOf h).fetched = 0 ∧ (t.dev.headOf h).lines = [] ∧ (t.dev.headOf h).starting = false ∧
        (t.dev.headOf h).lastLatch = x.nextLatch ∧
        (t.dev.headOf h).nextLatch = x.nextLatch + d.totalLines h * d.linePs h ∧
        (t.dev.headOf h).shown = some (d.shownFrame h) ∧
        t.dev.o (0x1850 + h) 0x01 = (d.o (0x1850 + h) 0x01 + 1) % 2 ^ 64 ∧
        (∃ y ∈ t.dev.event.raised, y.src = 48 + 4 * h.val) ∧ t.dev.pends (.frame h) = false ∧
        (d.pends (.frame h) = true → frameCheck h d = 0 →
          (d.headLocked = true → d.pends (.frame (1 - h)) = true → frameCheck (1 - h) d = 0) → ∀ k ∈ frameKeys h, t.dev.get (akey k) = d.get (pkey k)) ∧
        t.dev.mem.sdram = d.mem.sdram)

/-- A line due is fetched: its output words join the line buffer, which keeps the last two, the source CRC runs over them, and
nothing outside the head changes. The line match is raised once a frame. An underrun, seen by the pixel clock or by the fetch
of a line that is already due, aborts the frame, counts and raises its source, and aborts the other head's frame of a running
locked pair. The frame record is written with the two CRCs, which are 0 for an aborted frame and run over no word where the
head had sent none, and a difference between them is counted. -/
def Obligations.LinesUnderrunsAndRecords : Prop :=
  ∀ (st : State) (h : Head), st.running →
    let d := st.dev
    let x := d.headOf h
    (d.fetching h = true → d.lineMissing h = false → (x.fetched = 0 ∨ d.reached (d.lineStart h (x.fetched - 1)) = true) →
      ∃ t, exec (.lineFetch h) st = .next t ∧ t.pending = st.pending ∧ t.dev = { d with heads := t.dev.heads } ∧
        (∀ k, k ≠ h.val → t.dev.headOf k = d.headOf k) ∧ (t.dev.headOf h).fetched = x.fetched + 1 ∧
        (t.dev.headOf h).lines = (x.lines.drop (x.lines.length - 1)) ++ [(x.fetched, d.lineWords h x.fetched)] ∧
        (t.dev.headOf h).crc = crc32Run x.crc (crcBytes (d.act (0x1810 + h) 0x04) (d.lineWords h x.fetched)) ∧
        (t.dev.headOf h).poisoned = (x.poisoned || d.linePoisoned h x.fetched)) ∧
    (d.headState h = headRunning → x.starting = false → x.matched = false → d.o (0x1810 + h) 0x23 < d.totalLines h →
      d.reached (d.lineStart h (d.o (0x1810 + h) 0x23)) = true →
      x.matchFrom ≤ d.lineStart h (d.o (0x1810 + h) 0x23) / 1000 →
      ∃ t, exec (.lineMatch h) st = .next t ∧ t.pending = st.pending ∧
        t.dev = { d with heads := t.dev.heads, event := { d.event with raised := t.dev.event.raised, snap := t.dev.event.snap } } ∧
        t.dev.headOf h = { x with matched := true } ∧ (∀ k, k ≠ h.val → t.dev.headOf k = d.headOf k) ∧
        ∃ y, t.dev.event.raised = d.event.raised ++ [y] ∧ y.src = 49 + 4 * h.val) ∧
    (d.lineMissing h = true → ∀ c : Instr, c = .pixelUnderrun h ∨ c = .lineFetch h →
      ∃ t, exec c st = .next t ∧ t.pending = st.pending ∧
        t.dev = { d with objs := t.dev.objs, heads := t.dev.heads, event := { d.event with raised := t.dev.event.raised, snap := t.dev.event.snap } } ∧
        d.sameBut t.dev [okey (0x1850 + h) 0x04] ∧
        t.dev.o (0x1850 + h) 0x04 = min (d.o (0x1850 + h) 0x04 + 1) (2 ^ 32 - 1) ∧
        t.dev.headOf h = { x with aborted := true } ∧
        (d.headLocked = true → d.headState (1 - h) = headRunning →
          t.dev.headOf (1 - h) = { d.headOf (1 - h) with aborted := true }) ∧
        (d.headLocked = false → t.dev.headOf (1 - h) = d.headOf (1 - h)) ∧
        ∃ y, t.dev.event.raised = d.event.raised ++ [y] ∧ y.src = 51 + 4 * h.val) ∧
    (∀ (volts : List (List Int)) (f : Shown), x.shown = some f →
      let src := if f.aborted then 0 else f.crc
      let pin := if f.aborted then 0 else if f.sent then d.pinCrc h volts else crc32Final 0xFFFFFFFF
      ∃ t, exec (.frameDone h volts) st = .next t ∧ t.pending = st.pending ∧
        t.dev = { d with objs := t.dev.objs, freeCtr := d.freeCtr + (if f.aborted || !f.sent then 0 else 1), heads := t.dev.heads, event := { d.event with raised := t.dev.event.raised, snap := t.dev.event.snap } } ∧
        d.sameBut t.dev [okey (0x1850 + h) 0x02, okey (0x1850 + h) 0x03] ∧
        t.dev.headOf h = { x with shown := none } ∧ (∀ k, k ≠ h.val → t.dev.headOf k = d.headOf k) ∧
        t.dev.o (0x1850 + h) 0x02 = f.number + src * 2 ^ 32 + pin * 2 ^ 64 + (f.flags + if src = pin then 1 else 0) * 2 ^ 96 +
          h * 2 ^ 104 + f.time % 2 ^ 64 * 2 ^ 128 + f.base % 2 ^ 64 * 2 ^ 192 ∧
        t.dev.o (0x1850 + h) 0x03 = (if src = pin then d.o (0x1850 + h) 0x03 else min (d.o (0x1850 + h) 0x03 + 1) (2 ^ 32 - 1)) ∧
        ∃ y, t.dev.event.raised = d.event.raised ++ [y] ∧ y.src = 50 + 4 * h.val)

/-- A pulse waits for the next cycle, which asserts the lines of its mask; where no line whose edge then rises, and has not yet
been acted on in the cycle, has a consumer (broadcast strobe, TRIG output, acquisition trigger, TMU), nothing else happens
but that these edges have been acted on. A pulse of 3 ns or more on a TRIG pin in input mode is due on its line 6 ns to 7 ns
later, for the cycles that contain it; on a pin in another mode it does nothing. A snapshot trigger by a write is registered
in its cycle, an edge of an enabled SNAP_IN in the fourth or fifth cycle after it. A clear of the fault latch opens it and
shows no source. -/
def Obligations.LinesTriggersAndFaults : Prop :=
  ∀ (st : State), st.running →
    let d := st.dev
    let eventOnly (e : EventState) : Device := { d with event := e }
    (∀ (p : Port) (mask : BitVec 32), d.accepts p 0x1500 0x07 mask.toNat false →
      ∃ t, exec (.triggerLinePulse p mask) st = .next t ∧ t.pending = st.pending ∧
        t.dev = eventOnly { d.event with pulseNext := d.event.pulseNext ||| mask.toNat }) ∧
    (d.event.strobeNext = false → d.event.pulseNext ≠ 0 →
      let rises (l : Nat) : Bool :=
        (bit d.linesAsserted l || bit d.event.pulseNext l) && !(bit d.event.linePrev l) && !(bit d.event.edged l)
      (∀ l < 32, rises l = true →
        d.o 0x1500 0x05 ≠ l ∧ (∀ k < 4, ¬(d.trigMode k = 2 ∧ d.trigLine k = l)) ∧
        (∀ c < 32, ¬(d.act (clusterIx c) 0x52 = 2 ∧ d.act (clusterIx c) 0x53 = l)) ∧
        ∀ n ∈ d.pins.tmu.map Prod.fst, d.tmuBusy n = true → TmuInput.takesLine (d.tmuOf n).startIn l true = false ∧ TmuInput.takesLine (d.tmuOf n).stopIn l true = false) →
      hostTick d = eventOnly { d.event with
        pulseNext := 0, linePulse := d.event.linePulse ||| d.event.pulseNext % 2 ^ 32, edged := (hostTick d).event.edged } ∧
      ∀ l < 32, bit (hostTick d).linesAsserted l = (bit d.linesAsserted l || bit d.event.pulseNext l) ∧
        bit (hostTick d).event.edged l = (bit d.event.edged l || rises l)) ∧
    (∀ (k : Fin 4) (edge : Fin 1000) (width : BitVec 32),
      (d.trigMode k ≠ 1 → exec (.trigInput k edge width) st = .next st) ∧
      (d.trigMode k = 1 → 3000 ≤ width.toNat → ∃ t delay, exec (.trigInput k edge width) st = .next t ∧ t.pending = st.pending ∧
        6000 ≤ delay ∧ delay ≤ 7000 ∧
        let at0 := d.cycle * 1000 + edge.val + delay
        t.dev = { d with freeCtr := d.freeCtr + 1, event := { d.event with
          trigIn := d.event.trigIn ++ [(k.val, at0 / 1000, (at0 + width.toNat - 1) / 1000)] } })) ∧
    ((∀ y ∈ d.event.snap, y.cycle ≠ d.cycle) →
      (∀ (p : Port) (v : Byte), d.accepts p 0x1500 0x20 v.toNat false →
        ∃ t, exec (.snapshotTrigger p v) st = .next t ∧ t.pending = st.pending ∧ t.dev = eventOnly { d.event with
          snap := d.event.snap ++ [⟨1, 0xFFFF, d.cycle, !d.event.snap.isEmpty⟩] }) ∧
      ((∃ c ∈ d.event.snapIn, c ≤ d.cycle) → snapInTick d = eventOnly { d.event with
          snapIn := d.event.snapIn.filter fun c => decide (d.cycle < c)
          snap := d.event.snap ++ [⟨2, 0xFFFF, d.cycle, !d.event.snap.isEmpty⟩] })) ∧
    (d.o 0x1500 0x14 = 1 → ∃ t c, exec .snapIn st = .next t ∧ t.pending = st.pending ∧ (c = d.cycle + 4 ∨ c = d.cycle + 5) ∧
      t.dev = { d with freeCtr := d.freeCtr + 1, event := { d.event with snapIn := d.event.snapIn ++ [c] } }) ∧
    (d.o 0x1500 0x14 ≠ 1 → exec .snapIn st = .next st) ∧
    (∀ (p : Port) (v : Byte), d.accepts p 0x1500 0x03 v.toNat false →
      ∃ t, exec (.faultLatchClear p v) st = .next t ∧ t.pending = st.pending ∧
        t.dev = { d with objs := t.dev.objs, event := { d.event with faultLatch := false } } ∧
        d.sameBut t.dev [okey 0x1500 0x02] ∧ t.dev.o 0x1500 0x02 = 0xFFFF)

/-- Before the fourth cycle after the oldest occurrence was raised, and with none waiting, nothing happens. From that cycle on it
is delivered by the route in force when it was raised: its count goes up; routed to the ring it opens a report or joins its
source's pending one; routed to FAULT_N it sets the latch and, first to do so, shows its source and counts; it wakes the
CFEs, which examine the sites that they host, pulses the condition input of its source, and pulses the TRIG pins of its
route, which go active 11 ns to 13 ns later. This is stated for a route that names no trigger line; then nothing else
changes. That all of it falls in one delivery at the fourth cycle is the model's choice (log entry 19). Raising an occurrence
keeps its route, and registers the snapshot trigger that it asks for. -/
def Obligations.EventDeliveryRoutes : Prop :=
  ∀ (st : State), st.running →
    let d := st.dev
    (d.event.raised = [] → exec .eventDelivery st = .next st) ∧
    (∀ x rest, d.event.raised = x :: rest →
      (d.cycle < x.cycle + 4 → exec .eventDelivery st = .next st) ∧
      (x.cycle + 4 ≤ d.cycle → fld x.route 0 4 = 0 →
        let flags := fld x.route 12 1
        ∃ t e, exec .eventDelivery st = .next t ∧ t.pending = st.pending ∧
          t.dev = (if e.event.cfeWake = 0 then e else wakeFlows e) ∧
          e = { d with objs := e.objs, freeCtr := e.freeCtr, event := { d.event with
            raised := rest
            cfeWake := d.event.cfeWake ||| fld x.route 4 4
            ciPulse := if 64 ≤ x.src then d.event.ciPulse ||| 2 ^ (x.src - 64) else d.event.ciPulse
            reports := e.event.reports
            faultLatch := d.event.faultLatch || bit flags 1
            trigOut := e.event.trigOut } } ∧
          d.sameBut e [countKey x.src, okey 0x1500 0x02, okey 0x1500 0x04] ∧
          fld (e.get (countKey x.src)) 0 8 = (fld (d.get (countKey x.src)) 0 8 + 1) % 2 ^ 64 ∧
          (bit flags 0 = false → e.event.reports = d.event.reports) ∧
          (bit flags 0 = true → (d.event.reports.find? fun r => r.src == x.src) = none →
            e.event.reports = d.event.reports ++ [⟨x.src, 1, x.time⟩]) ∧
          (bit flags 0 = true → (d.event.reports.find? fun r => r.src == x.src).isSome = true →
            e.event.reports = d.event.reports.map fun r => if r.src = x.src then { r with count := r.count + 1 } else r) ∧
          (bit flags 1 = true → d.event.faultLatch = false → e.o 0x1500 0x02 = x.src) ∧
          ∃ new : List TrigPulse, e.event.trigOut = d.event.trigOut ++ new ∧
            new.map TrigPulse.pin = (List.range 4).filter (fun k => bit (fld x.route 13 1) k && d.trigMode k == 2) ∧
            ∀ y ∈ new, y.running = false ∧ y.cycles = 1 ∧ 1000 * d.cycle + 11000 ≤ y.start ∧ y.start ≤ 1000 * d.cycle + 13000)) ∧
    ∀ (src : Nat),
      (d.raise src).event.raised = d.event.raised ++ [⟨src, d.cycle, d.ringNs, d.route src⟩] ∧
      (bit (fld (d.route src) 12 1) 2 = false → (d.raise src).event.snap = d.event.snap) ∧
      (bit (fld (d.route src) 12 1) 2 = true → (∀ y ∈ d.event.snap, y.cycle ≠ d.cycle) →
        (d.raise src).event.snap = d.event.snap ++ [⟨0, src, d.cycle, !d.event.snap.isEmpty⟩])

/-- From 16 cycles after the oldest trigger every armed bank of a tile above DOZE latches the state of the latch cycle under a
header of the trigger; a full bank counts the trigger, and one in DOZE or deeper misses it. Before, nothing happens. A re-arm
of all banks, or of the selected one, makes a full bank armed with its counts at 0 and its contents kept; it changes no other
bank and nothing else but the full-banks record. -/
def Obligations.SnapshotsLatchAndRearm : Prop :=
  ∀ (st : State), st.running →
    let d := st.dev
    (d.event.snap = [] → exec .snapshotLatch st = .next st) ∧
    (∀ x rest, d.event.snap = x :: rest →
      (d.cycle < x.cycle + 16 → exec .snapshotLatch st = .next st) ∧
      (x.cycle + 16 ≤ d.cycle → ∃ t, exec .snapshotLatch st = .next t ∧ t.pending = st.pending ∧
        (bit (fld (d.route 61) 12 1) 2 = false → bit (fld (d.route 62) 12 1) 2 = false → t.dev.event.snap = rest) ∧
        t.dev = { d with objs := t.dev.objs, event := t.dev.event } ∧
        d.sameBut t.dev [okey 0x1500 0x22, okey 0x1500 0x23, okey 0x1500 0x24, okey 0x1500 0x26] ∧
        ∀ b < 169,
          ((d.bankOf b).full = true → t.dev.bankOf b = { d.bankOf b with whileFull := min ((d.bankOf b).whileFull + 1) (2 ^ 32 - 1) }) ∧
          ((d.bankOf b).full = false → bankTile b < 8 → 3 ≤ d.powerState (bankTile b) →
            t.dev.bankOf b = { d.bankOf b with missed := min ((d.bankOf b).missed + 1) (2 ^ 16 - 1) }) ∧
          ((d.bankOf b).full = false → ¬(bankTile b < 8 ∧ 3 ≤ d.powerState (bankTile b)) →
            t.dev.bankOf b = { d.bankOf b with full := true, content :=
              (packFields [(1, 1, x.kind), (2, 2, x.src), (8, 8, x.cycle + 16), (16, 8, d.ringNs)]) + d.bankImage b }))) ∧
    (∀ (p : Port) (v : Byte),
      (d.accepts p 0x1500 0x21 v.toNat false → ∃ t, exec (.rearmAllBanks p v) st = .next t ∧ t.pending = st.pending ∧
        t.dev = { d with objs := t.dev.objs, event := { d.event with banks := t.dev.event.banks } } ∧
        d.sameBut t.dev [okey 0x1500 0x26] ∧ t.dev.o 0x1500 0x26 = 0 ∧
        ∀ b < 169, t.dev.bankOf b =
          if (d.bankOf b).full then { d.bankOf b with full := false, whileFull := 0, missed := 0 } else d.bankOf b) ∧
      (d.accepts p 0x1501 0x02 v.toNat false → ∃ t, exec (.rearmBank p v) st = .next t ∧ t.pending = st.pending ∧
        t.dev = { d with objs := t.dev.objs, event := { d.event with banks := t.dev.event.banks } } ∧
        d.sameBut t.dev [okey 0x1500 0x26] ∧
        ∀ b, t.dev.bankOf b = if b = d.bankSelected p ∧ (d.bankOf b).full = true then
          { d.bankOf b with full := false, whileFull := 0, missed := 0 } else d.bankOf b))

/-- A check of checker k in a tile whose queues hold equal pointer copies leaves everything as it is where each of its invariants
equals its baseline, is suspended or not checked, but for the Crocus checker's count; every other invariant that it checks is
suspended afterwards. A location run with no scan asked for changes nothing; else it names the first broken queue in the
fault records of its invariant. Resume suspends none and shows none suspended, and changes nothing else but the baselines. A
clear of the memory condition sets it where the SDRAM has been READY, and only forgets the error before. -/
def Obligations.LedgerChecksLocatesResumes : Prop :=
  ∀ (st : State), st.running →
    let d := st.dev
    let broken (inv unit : Nat) : Prop :=
      d.ledgerSkips inv unit = false ∧ d.isSuspended inv unit = false ∧
      (d.ledgerTerms inv unit).1 - (d.ledgerTerms inv unit).2 ≠ d.baselineOf inv unit
    (∀ (k : Fin 9), k.val < 8 → (∀ q ∈ d.listedQueues k, d.copiesDiffer q = false) →
      ((∀ x ∈ d.tileScopes k, ¬ broken x.1 x.2) → exec (.ledgerCheck k) st = .next st) ∧
      ∃ t, exec (.ledgerCheck k) st = .next t ∧ t.pending = st.pending ∧
        t.dev = { d with objs := t.dev.objs, event := t.dev.event, ledger := t.dev.ledger } ∧
        d.sameBut t.dev [okey 0x1780 0x03, okey 0x1780 0x04, okey 0x1780 0x05, okey 0x1780 0x06] ∧
        ∀ x ∈ d.tileScopes k, broken x.1 x.2 → t.dev.isSuspended x.1 x.2 = true) ∧
    (∃ t, exec (.ledgerCheck 8) st = .next t ∧ t.pending = st.pending ∧
      t.dev.o 0x1780 0x09 = (d.o 0x1780 0x09 + 1) % 2 ^ 64 ∧
      (¬ broken 8 0 → d.OnlyKeys t.dev [okey 0x1780 0x09]) ∧
      (broken 8 0 → t.dev.isSuspended 8 0 = true ∧
        t.dev.o 0x1780 0x05 = d.faultRecord 8 0 (d.ledgerTerms 8 0).1 (d.ledgerTerms 8 0).2 ∧
        (∃ y, t.dev.event.raised = d.event.raised ++ [y] ∧ y.src = 60))) ∧
    (∀ (g : Tile), (Cells.read 0 g d.ledger.locate = 0 → exec (.ledgerLocate g) st = .next st) ∧
      (Cells.read 0 g d.ledger.locate ≠ 0 → ∃ t, exec (.ledgerLocate g) st = .next t ∧ t.pending = st.pending ∧
        Cells.read 0 g t.dev.ledger.locate = 0 ∧ d.sameBut t.dev [okey 0x1780 0x04, okey 0x1780 0x05] ∧
        t.dev = { d with objs := t.dev.objs, ledger := { d.ledger with locate := t.dev.ledger.locate } } ∧
        ∀ (i q : Nat), (i = 1 ∨ i = 2) → bit (Cells.read 0 g d.ledger.locate) (i - 1) = true → d.brokenQueue g i = some q →
          ∀ sub, sub = 0x04 ∨ sub = 0x05 → fld (d.o 0x1780 sub) 0 1 = i → fld (d.o 0x1780 sub) 1 1 = g →
            fld (d.o 0x1780 sub) 4 4 = 0xFFFFFFFF → t.dev.o 0x1780 sub = setFld (d.o 0x1780 sub) 4 4 q)) ∧
    (∀ (p : Port) (v : Byte),
      (d.accepts p 0x1780 0x07 v.toNat false → ∃ t, exec (.ledgerResume p v) st = .next t ∧ t.pending = st.pending ∧
        t.dev.ledger.suspended = [] ∧ t.dev.o 0x1780 0x06 = 0 ∧
        t.dev = { d with objs := t.dev.objs, ledger := t.dev.ledger } ∧
        d.sameBut t.dev [okey 0x1780 0x06, okey 0x1780 0x08]) ∧
      (d.accepts p 0x1780 0x02 v.toNat false →
        (d.mem.everReady = false → ∃ t, exec (.clearMemoryCondition p v) st = .next t ∧ t.pending = st.pending ∧
          t.dev = { d with mem := { d.mem with memError := false } }) ∧
        (d.mem.everReady = true → ∃ t, exec (.clearMemoryCondition p v) st = .next t ∧ t.pending = st.pending ∧
          bit (t.dev.o 0x1780 0x01) 2 = true ∧ d.sameBut t.dev [okey 0x1780 0x01] ∧
          t.dev = { d with objs := t.dev.objs, mem := { d.mem with memError := false },
                           event := { d.event with raised := t.dev.event.raised, snap := t.dev.event.snap } })))

/-- The first strobe of a cycle at a quad whose commit waits and passes its checks again applies it: every active copy has the
pending value, the set it names is selected, and the DACs load that set's codes at the load edge, each output moving from
where it then stands to where it comes to rest by that code and the correction in force; the strobe is counted and its ring
time shown. A write of the broadcast strobe asks for it in the next cycle. The broadcast strobe loads the selected set's
codes in every quad that listens, with no commit waiting, whose tile does not calibrate and is not in SLEEP or deeper; the
DACs of a quad that does not listen, or whose tile calibrates, stay. -/
def Obligations.LevelStrobesLoadTheDacs : Prop :=
  ∀ (st : State) (p : Port) (v : Byte), st.running →
    let d := st.dev
    let frame (e : Device) : Prop := e = { d with
      objs := e.objs
      pend := e.pend
      pins := { d.pins with dac := e.pins.dac, chanMon := e.pins.chanMon, ppmuSkip := e.pins.ppmuSkip }
      sites := { d.sites with flow := e.sites.flow } }
    let loaded (q codes : Nat) : Dac :=
      let rest := (d.dacOf q).loads.filter fun l => decide (l.ps < loadEdge d.cycle)
      { loads := ⟨loadEdge d.cycle, codes, (List.range 24).map fun i => outputAt q i (loadEdge d.cycle) rest,
          (List.range 24).map fun i => d.restOutput q i (levelCode codes (i / 6) (i % 6))⟩ :: rest
        strobed := d.cycle + 1
        lset := none }
    (∀ q < 128, d.pends (.level q) = true → levelCheck q d = 0 → (d.dacOf q).strobed ≠ d.cycle + 1 →
      let e := levelStrobe q none d
      frame e ∧ (∀ k ∈ levelKeys q, e.get (akey k) = d.get (pkey k)) ∧ e.get (levelStatusKey q) = codeAccepted ∧
      e.pends (.level q) = false ∧ e.o (quadIx q) 0x18 = d.pnd (quadIx q) 0x12 ∧
      e.dacOf q = loaded q (d.pnd (quadIx q) (1 + d.pnd (quadIx q) 0x12)) ∧
      e.o (quadIx q) 0x19 = (d.o (quadIx q) 0x19 + 1) % 2 ^ 32 ∧ e.o (quadIx q) 0x1A = d.ringNs ∧
      ∀ j, j ≠ q → e.dacOf j = d.dacOf j) ∧
    (d.accepts p 0x1500 0x06 v.toNat false → ∃ t, exec (.broadcastStrobeNow p v) st = .next t ∧ t.pending = st.pending ∧
      t.dev = { d with event := { d.event with strobeNext := true } }) ∧
    frame (broadcastStrobe d) ∧
    ∀ q < 128,
      (d.o (quadIx q) 0x15 = 0 ∨ d.calibrating (q / 16) = true →
        (broadcastStrobe d).dacOf q = d.dacOf q ∧ (broadcastStrobe d).o (quadIx q) 0x19 = d.o (quadIx q) 0x19) ∧
      (d.o (quadIx q) 0x15 ≠ 0 → d.calibrating (q / 16) = false → d.pends (.level q) = false → d.powerState (q / 16) ≤ 3 →
        (d.dacOf q).strobed ≠ d.cycle + 1 →
        (broadcastStrobe d).dacOf q = loaded q (d.act (quadIx q) (1 + d.o (quadIx q) 0x18)) ∧
        (broadcastStrobe d).o (quadIx q) 0x19 = (d.o (quadIx q) 0x19 + 1) % 2 ^ 32 ∧
        (broadcastStrobe d).o (quadIx q) 0x1A = d.ringNs)

/-- A tick of a quad reaches its four channels. A running window monitor with no self-check asserts the low comparator below the
low threshold and releases it above that plus its hysteresis, the high comparator likewise, shows BELOW, ABOVE or INSIDE, and
counts and raises an alarm exactly when the state becomes BELOW or ABOVE anew. A self-check takes four ticks with the state
as it is; a TIE keeps its good verdict while no comparator answers wrongly (that it asks both is the model's choice, log
entry 101), a SWAP while each swapped tick answers as the normal one before it. It ends with PASS or FAIL, a FAIL raising the
source; on a disabled monitor it is NOT-RUN, and while one runs a request does nothing. A monitor that does not run takes no
tick, and nothing else changes. -/
def Obligations.ChannelMonitorsTick : Prop :=
  ∀ (st : State), st.running →
    let d := st.dev
    let lo (n : Nat) : Int := d.acti (chanIx n) 0x0A
    let hi (n : Nat) : Int := d.acti (chanIx n) 0x0B
    let low (n : Nat) (s : Int) : Bool :=
      if s < lo n then true else if lo n + d.acti (chanIx n) 0x0C < s then false else (d.chanMon n).low
    let high (n : Nat) (s : Int) : Bool :=
      if hi n < s then true else if s < hi n - d.acti (chanIx n) 0x0D then false else (d.chanMon n).high
    let was (n : Nat) : Nat := if (d.chanMon n).low then 0 else if (d.chanMon n).high then 2 else 1
    let now (n : Nat) (s : Int) : Nat := if low n s then 0 else if high n s then 2 else 1
    let alarm (n : Nat) (s : Int) : Bool :=
      d.monitorRuns n && (d.chanMon n).check == 0 && now n s != was n && now n s != 1
    (∀ (q : Quad) (samples : List MonSample),
      let x (i : Nat) : MonSample := samples.getD i MonSample.zero
      ∃ t, exec (.monitorTick q samples) st = .next t ∧ t.pending = st.pending ∧
        t.dev = { d with objs := t.dev.objs, event := { d.event with raised := t.dev.event.raised, snap := t.dev.event.snap },
                         pins := { d.pins with chanMon := t.dev.pins.chanMon } } ∧
        (∀ n, n / 4 ≠ q.val → t.dev.chanMon n = d.chanMon n) ∧
        d.sameBut t.dev ((List.range 4).flatMap fun i => [okey (chanIx (4 * q + i)) 0x14, okey (chanIx (4 * q + i)) 0x15]) ∧
        (∃ l, t.dev.event.raised = d.event.raised ++ l ∧ (∀ y ∈ l, y.src = clusterSource (q / 4) 2) ∧
          l.length = ((List.range 4).filter fun i => alarm (4 * q + i) (x i).value).length) ∧
        ∀ i < 4,
          let n := 4 * q.val + i
          let m := d.chanMon n
          (d.monitorRuns n = false ∨ (m.check ≠ 0 ∧ 4 ≤ m.ticks) → t.dev.chanMon n = m) ∧
          (d.monitorRuns n = false ∨ m.check ≠ 0 →
            t.dev.o (chanIx n) 0x14 = d.o (chanIx n) 0x14 ∧ t.dev.o (chanIx n) 0x15 = d.o (chanIx n) 0x15) ∧
          (d.monitorRuns n = true → m.check = 0 →
            t.dev.chanMon n = { m with low := low n (x i).value, high := high n (x i).value } ∧
            t.dev.o (chanIx n) 0x14 = now n (x i).value ∧
            t.dev.o (chanIx n) 0x15 = (if alarm n (x i).value then min (d.o (chanIx n) 0x15 + 1) (2 ^ 32 - 1) else d.o (chanIx n) 0x15)) ∧
          (d.monitorRuns n = true → m.check ≠ 0 → m.ticks < 4 → ∃ good normal,
            t.dev.chanMon n = { m with ticks := m.ticks + 1, good := good, normal := normal } ∧
            (m.check = 1 → m.ticks % 2 = 0 → good = m.good ∧
              normal = (low n (x i).value != (x i).lowBad, high n (x i).value != (x i).highBad)) ∧
            (m.check = 1 → m.ticks % 2 = 1 → good = (m.good &&
              decide ((low n (x i).value != (x i).lowBad, high n (x i).value != (x i).highBad) = m.normal))) ∧
            (m.check ≠ 1 → 0 ≤ d.acti (chanIx n) 0x0C → 0 ≤ d.acti (chanIx n) 0x0D →
              lo n + d.acti (chanIx n) 0x0C < hi n - d.acti (chanIx n) 0x0D →
              good = (m.good && !((x i).lowBad || (x i).highBad)) ∧ normal = m.normal))) ∧
    ∀ (n : Chan),
      let m := d.chanMon n
      let frame (e : Device) (ks : List Nat) : Prop :=
        e = { d with objs := e.objs, event := { d.event with raised := e.event.raised, snap := e.event.snap },
                     pins := { d.pins with chanMon := e.pins.chanMon } } ∧
        (∀ k, k ≠ n.val → e.chanMon k = d.chanMon k) ∧ d.sameBut e ks
      (∀ (p : Port) (v : Byte), d.accepts p (chanIx n) 0x16 v.toNat false →
        (d.act (chanIx n) 0x09 ≠ 1 → ∃ t, exec (.monitorSelfCheckRequest p n v) st = .next t ∧ t.pending = st.pending ∧
          d.OnlyKeys t.dev [okey (chanIx n) 0x17] ∧ t.dev.o (chanIx n) 0x17 = 4) ∧
        (d.act (chanIx n) 0x09 = 1 → m.check ≠ 0 → exec (.monitorSelfCheckRequest p n v) st = .next st) ∧
        (d.act (chanIx n) 0x09 = 1 → m.check = 0 → ∃ t, exec (.monitorSelfCheckRequest p n v) st = .next t ∧
          t.pending = st.pending ∧ frame t.dev [okey (chanIx n) 0x17] ∧ t.dev.o (chanIx n) 0x17 = 1 ∧ t.dev.event = d.event ∧
          t.dev.chanMon n = { m with check := v.toNat, ticks := 0, normal := (false, false), good := true })) ∧
      (m.check = 0 ∨ m.ticks < 4 → exec (.selfCheckComplete (.chan n)) st = .next st) ∧
      (m.check ≠ 0 → 4 ≤ m.ticks → ∃ t, exec (.selfCheckComplete (.chan n)) st = .next t ∧ t.pending = st.pending ∧
        frame t.dev [okey (chanIx n) 0x17] ∧
        t.dev.chanMon n = { m with check := 0, ticks := 0, normal := (false, false), good := true } ∧
        t.dev.o (chanIx n) 0x17 = (if m.good then 2 else 3) ∧ (m.good = true → t.dev.event = d.event) ∧
        (m.good = false → ∃ y, t.dev.event.raised = d.event.raised ++ [y] ∧ y.src = clusterSource (n / 16) 2))

/-- A conversion of a PPMU that works is discarded while discards are left, and else, limited to the span of a voltage or of a
current, shown in the object of its mode, counted, kept for the next sample set, and taken by the steps that measure it; a
PPMU that does not work converts nothing. A clamp that the mode has engages: its bit is set, and but in a self-check the
entry counts and the source is raised; it does nothing while engaged already or where the mode has no such clamp. A release
clears the bit. Nothing else changes. -/
def Obligations.PpmuSamplesAndClamps : Prop :=
  ∀ (st : State) (n : Chan), st.running →
    let d := st.dev
    (∀ (value : Int),
      (d.ppmuRuns n = false → exec (.ppmuSample n value) st = .next st) ∧
      (d.ppmuRuns n = true → d.ppmuSkip n ≠ 0 → ∃ t, exec (.ppmuSample n value) st = .next t ∧ t.pending = st.pending ∧
        t.dev = { d with pins := { d.pins with ppmuSkip := t.dev.pins.ppmuSkip } } ∧ t.dev.ppmuSkip n = d.ppmuSkip n - 1 ∧
        ∀ k, k ≠ n.val → t.dev.ppmuSkip k = d.ppmuSkip k) ∧
      (d.ppmuRuns n = true → d.ppmuSkip n = 0 → ∃ t, exec (.ppmuSample n value) st = .next t ∧ t.pending = st.pending ∧
        t.dev = { d with objs := t.dev.objs, sites := { d.sites with flow := t.dev.sites.flow },
                         pins := { d.pins with conv := t.dev.pins.conv } } ∧
        (∀ k, k ≠ n.val → t.dev.convOf k = d.convOf k) ∧
        d.sameBut t.dev [okey (chanIx n) 0x10, okey (chanIx n) 0x11, okey (chanIx n) 0x12] ∧
        t.dev.o (chanIx n) 0x12 = (d.o (chanIx n) 0x12 + 1) % 2 ^ 32 ∧
        (d.ppmuMode n = 1 → t.dev.o (chanIx n) 0x11 = ux 32 (max (-9227468) (min 9227468 value)) ∧
          t.dev.o (chanIx n) 0x10 = d.o (chanIx n) 0x10 ∧ (t.dev.convOf n).cur = some (max (-9227468) (min 9227468 value))) ∧
        (d.ppmuMode n ≠ 1 → t.dev.o (chanIx n) 0x10 = ux 32 (max (-8388608) (min 8388608 value)) ∧
          t.dev.o (chanIx n) 0x11 = d.o (chanIx n) 0x11 ∧ (t.dev.convOf n).volt = some (max (-8388608) (min 8388608 value))))) ∧
    (∀ (w : Fin 3),
      (clampOf (d.ppmuMode n) w = true → d.ppmuRuns n = true → bit (d.o (chanIx n) 0x13) w = false →
        ∃ t, exec (.ppmuClampEngage n w) st = .next t ∧ t.pending = st.pending ∧
          t.dev = { d with objs := t.dev.objs, event := { d.event with raised := t.dev.event.raised, snap := t.dev.event.snap },
                           pins := { d.pins with conv := t.dev.pins.conv } } ∧
          d.sameBut t.dev [okey (chanIx n) 0x13, okey (chanIx n) 0x15] ∧
          t.dev.o (chanIx n) 0x13 = d.o (chanIx n) 0x13 ||| 2 ^ w.val ∧
          t.dev.convOf n = { d.convOf n with clamp := true } ∧ (∀ k, k ≠ n.val → t.dev.convOf k = d.convOf k) ∧
          ((d.chanMon n).check ≠ 0 → t.dev.event = d.event ∧ t.dev.o (chanIx n) 0x15 = d.o (chanIx n) 0x15) ∧
          ((d.chanMon n).check = 0 → t.dev.o (chanIx n) 0x15 = min (d.o (chanIx n) 0x15 + 1) (2 ^ 32 - 1) ∧
            ∃ y, t.dev.event.raised = d.event.raised ++ [y] ∧ y.src = clusterSource (n / 16) 2)) ∧
      (clampOf (d.ppmuMode n) w = false ∨ d.ppmuRuns n = false ∨ bit (d.o (chanIx n) 0x13) w = true →
        exec (.ppmuClampEngage n w) st = .next st) ∧
      ∃ t, exec (.ppmuClampRelease n w) st = .next t ∧ t.pending = st.pending ∧ d.OnlyKeys t.dev [okey (chanIx n) 0x13] ∧
        bit (t.dev.o (chanIx n) 0x13) w = false ∧
        ∀ k, k ≠ w.val → bit (t.dev.o (chanIx n) 0x13) k = bit (d.o (chanIx n) 0x13) k)

/-- An interval measurement that has its start edge and no last stop edge ends when its timeout has passed since the start edge,
with status TIMEOUT (1), and one with timeout 0 never so; at the end of the range it ends with status OVERRANGE (2). The
measurement is then over, and its result is reported: at once, or behind the results that still convert; it counts and its
interval is 0. Before the timeout, or before the end of the range, nothing happens. -/
def Obligations.TmuTimeoutAndOverrange : Prop :=
  ∀ (st : State) (n : Chan), st.running →
    let d := st.dev
    let x := d.tmuOf n
    let shows (e : Device) : Prop := e.tmuState n =
      (if (e.tmuOf n).start.isSome then tmuStarted else if (e.tmuOf n).converting ≠ [] then tmuConverting
       else if (e.tmuOf n).left = 0 then tmuDone else tmuArmed)
    let reported (e : Device) (status : Nat) : Prop :=
      fld (e.o (chanIx n) 0x2C) 0 1 = status ∧ fld (e.o (chanIx n) 0x2C) 8 8 = 0 ∧
      e.o (chanIx n) 0x2D = (d.o (chanIx n) 0x2D + 1) % 2 ^ 32
    let ended (e : Device) (status : Nat) : Prop :=
      shows e ∧ (e.tmuOf n).start = none ∧ (e.tmuOf n).left = x.left - 1 ∧
      (x.converting = [] → (e.tmuOf n).converting = [] ∧ reported e status) ∧
      (x.converting ≠ [] → e.o (chanIx n) 0x2C = d.o (chanIx n) 0x2C ∧ e.o (chanIx n) 0x2D = d.o (chanIx n) 0x2D ∧
        (e.tmuOf n).converting = x.converting ++ [⟨status, x.start, x.first, x.last, x.edges, x.fast⟩])
    (∀ b : Nat × Nat, x.mode ≤ 1 → x.start = some b →
      (x.timeout ≠ 0 → b.1 + x.timeout ≤ d.cycle →
        ∃ t, exec (.tmuTimeout n) st = .next t ∧ t.pending = st.pending ∧ ended t.dev 1) ∧
      (x.timeout = 0 ∨ d.cycle < b.1 + x.timeout → exec (.tmuTimeout n) st = .next st) ∧
      (b.1 + 4294967295 ≤ d.cycle → ∃ t, exec (.tmuOverrange n) st = .next t ∧ t.pending = st.pending ∧ ended t.dev 2) ∧
      (d.cycle < b.1 + 4294967295 → exec (.tmuOverrange n) st = .next st)) ∧
    ∀ (m : TmuDone) (rest : List TmuDone), x.converting = m :: rest → m.status = 1 ∨ m.status = 2 →
      x.mode ≤ 2 → ∃ t, exec (.tmuResult n) st = .next t ∧ t.pending = st.pending ∧ reported t.dev m.status ∧ shows t.dev ∧
        (t.dev.tmuOf n).converting = rest ∧ (t.dev.tmuOf n).start = x.start

/-- An arm is held while the tile calibrates; else it is refused with its reason, or starts its batch: the configuration is
latched, the measure levels of the channels that it uses are loaded, the counts start again and it is ARMED, or DONE at once
for a batch of 0. A disarm drops a held arm; it ends a batch in progress with an ABORTED result, also with no measurement
under way (log entry 103: the model's choice), and DONE; else it does nothing. A TMU with measurements left in its batch and
none under way becomes ready once its time has come, and not before. No other TMU but for its measure levels, and no memory,
changes. -/
def Obligations.TmuArmsAndDisarms : Prop :=
  ∀ (st : State) (p : Port) (n : Chan), st.running →
    let d := st.dev
    let x := d.tmuOf n
    let cfg (sub : Nat) : Nat := d.o (chanIx n) sub
    let others (e : Device) : Prop := e.mem.sdram = d.mem.sdram ∧ e.mem.sram = d.mem.sram ∧ e.pins.dac = d.pins.dac ∧
      ∀ k, k ≠ n.val → e.tmuState k = d.tmuState k
    (d.accepts p (chanIx n) 0x2A 1 false →
      (d.calibrating (n / 64) = true → ∃ t, exec (.tmuArm p n) st = .next t ∧ t.pending = st.pending ∧
        t.dev = { d with objs := t.dev.objs, pins := { d.pins with tmu := t.dev.pins.tmu } } ∧
        d.sameBut t.dev [okey (chanIx n) 0x2B] ∧ t.dev.tmuState n = tmuHeld ∧
        t.dev.tmuOf n = { x with heldCount := cfg 0x29 } ∧ ∀ k, k ≠ n.val → t.dev.tmuOf k = d.tmuOf k) ∧
      (d.tmuRefusal n ≠ 0 → d.calibrating (n / 64) = false → ∃ t, exec (.tmuArm p n) st = .next t ∧ t.pending = st.pending ∧
        t.dev.tmuState n = tmuRefused ∧ t.dev.o (chanIx n) 0x30 = d.tmuRefusal n ∧ others t.dev ∧
        (∀ k, k ≠ n.val → t.dev.tmuOf k = d.tmuOf k) ∧
        (d.tmuBusy n = false → d.OnlySettled t.dev [okey (chanIx n) 0x2B, okey (chanIx n) 0x30] [n.val / 64])) ∧
      (d.tmuRefusal n = 0 → d.calibrating (n / 64) = false → ∃ t, exec (.tmuArm p n) st = .next t ∧ t.pending = st.pending ∧
        others t.dev ∧ t.dev.tmuState n = (if cfg 0x29 = 0 then tmuDone else tmuArmed) ∧
        t.dev.o (chanIx n) 0x2D = 0 ∧ t.dev.o (chanIx n) 0x30 = 0 ∧
        t.dev.tmuOf n = { Tmu.init with
          level0 := d.oi (chanIx n) 0x25, level1 := d.oi (chanIx n) 0x26, loaded := true, mode := cfg 0x1B
          startIn := ⟨cfg 0x1C, cfg 0x1D, cfg 0x1E, cfg 0x1F⟩, stopIn := ⟨cfg 0x20, cfg 0x21, cfg 0x22, cfg 0x23⟩
          stopCount := cfg 0x24, timeout := cfg 0x27, gate := cfg 0x28, left := cfg 0x29
          ready := d.cycle + if (d.measureChans n).any d.levelsMoved then 1000 else 20 } ∧
        ∀ k, k ≠ n.val → t.dev.tmuOf k = if k ∈ d.measureChans n then
          { d.tmuOf k with level0 := d.oi (chanIx k) 0x25, level1 := d.oi (chanIx k) 0x26, loaded := true } else d.tmuOf k)) ∧
    (d.accepts p (chanIx n) 0x2A 2 false →
      (d.tmuState n = tmuHeld → ∃ t, exec (.tmuDisarm p n) st = .next t ∧ t.pending = st.pending ∧
        d.OnlyKeys t.dev [okey (chanIx n) 0x2B] ∧ t.dev.tmuState n = tmuIdle) ∧
      (d.tmuBusy n = true → ∃ t, exec (.tmuDisarm p n) st = .next t ∧ t.pending = st.pending ∧ others t.dev ∧
        (∀ k, k ≠ n.val → t.dev.tmuOf k = d.tmuOf k) ∧
        t.dev.tmuState n = tmuDone ∧ (t.dev.tmuOf n).left = 0 ∧ (t.dev.tmuOf n).converting = [] ∧
        (t.dev.tmuOf n).start = none ∧ fld (t.dev.o (chanIx n) 0x2C) 0 1 = 3) ∧
      (d.tmuState n ≠ tmuHeld → d.tmuBusy n = false → exec (.tmuDisarm p n) st = .next st)) ∧
    (d.tmuBusy n = true → x.start = none → 0 < x.left → x.ready ≤ d.cycle →
      ∃ t, exec (.tmuReady n) st = .next t ∧ t.pending = st.pending ∧
        t.dev = { d with pins := { d.pins with tmu := t.dev.pins.tmu } } ∧ t.dev.tmuOf n = { x with isReady := true } ∧
        ∀ k, k ≠ n.val → t.dev.tmuOf k = d.tmuOf k) ∧
    (d.tmuBusy n = false ∨ x.start ≠ none ∨ x.left = 0 ∨ d.cycle < x.ready → exec (.tmuReady n) st = .next st)

/-- A qualifying start edge of a ready TMU starts the measurement at its cycle and fine code; an edge before is not accepted, and
one that does not qualify does nothing. A qualifying stop edge counts from 60 ps after the start edge on, or in a frequency
measurement from the start edge on; one before the start edge, or the start edge itself where both inputs name one comparator
or line and slope, does not; one in a cycle that may yet turn out to have begun with a falling line edge that starts the
measurement is kept for it. In an interval measurement the N-th starts the conversion. The gate's end starts the conversion
of a frequency measurement, with status 4 for fewer than two edges. A conversion writes the record with the interval
corrected by the calibrated bins, coarse count and fine codes, counts it, and the batch goes on or ends. -/
def Obligations.TmuEdgesAndResults : Prop :=
  ∀ (st : State) (n : Chan), st.running →
    let d := st.dev
    let x := d.tmuOf n
    let frame (e : Device) : Prop :=
      e = { d with objs := e.objs, freeCtr := e.freeCtr, pins := { d.pins with tmu := e.pins.tmu } } ∧
      d.sameBut e [okey (chanIx n) 0x2B] ∧ ∀ k, k ≠ n.val → e.tmuOf k = d.tmuOf k
    let shows (e : Device) : Prop := e.tmuState n =
      (if (e.tmuOf n).start.isSome then tmuStarted else if (e.tmuOf n).converting ≠ [] then tmuConverting
       else if (e.tmuOf n).left = 0 then tmuDone else tmuArmed)
    (∀ (e : PinEdge),
      let at_ := 2000 * d.cycle + e.fine.val
      let seen := (d.cycle, fineCode x.mode x.stopIn.source e.fine.val)
      (d.qualifies n x.startIn e = true → x.isReady = true → x.start = none →
        ∃ t, exec (.tmuStartEdge n e) st = .next t ∧ t.pending = st.pending ∧ frame t.dev ∧ t.dev.freeCtr = d.freeCtr ∧
          t.dev.tmuState n = tmuStarted ∧ t.dev.tmuOf n =
            { x with start := some (d.cycle, fineCode x.mode x.startIn.source e.fine.val), startAt := at_, isReady := false,
                     edges := 0, first := none, last := none }) ∧
      (d.qualifies n x.startIn e = false ∨ x.isReady = false ∨ x.start ≠ none → exec (.tmuStartEdge n e) st = .next st) ∧
      (d.qualifies n x.stopIn e = false ∨ (x.start = none ∧ awaitsFall x = false) ∨ (x.start ≠ none ∧ (at_ < x.startAt ∨
        (x.mode ≠ 2 ∧ at_ = x.startAt ∧ TmuInput.same x.startIn x.stopIn = true))) → exec (.tmuStopEdge n e) st = .next st) ∧
      (d.qualifies n x.stopIn e = true → awaitsFall x = true →
        ∃ t, exec (.tmuStopEdge n e) st = .next t ∧ t.pending = st.pending ∧ t.dev = { d with pins := { d.pins with tmu := t.dev.pins.tmu } } ∧
          t.dev.tmuOf n = { x with early := x.early.filter (fun y => y.1 == d.cycle) ++ [(d.cycle, e.fine.val)] } ∧
          ∀ k, k ≠ n.val → t.dev.tmuOf k = d.tmuOf k) ∧
      (d.qualifies n x.stopIn e = true → x.start ≠ none → x.startAt + (if x.mode = 2 then 0 else 120) ≤ at_ →
        ∃ t, exec (.tmuStopEdge n e) st = .next t ∧ t.pending = st.pending ∧ frame t.dev ∧ t.dev.freeCtr = d.freeCtr + 1 ∧
          (¬(x.mode ≠ 2 ∧ x.stopCount ≤ x.edges + 1) → (t.dev.tmuOf n).edges = x.edges + 1 ∧
            (t.dev.tmuOf n).last = some seen ∧ (t.dev.tmuOf n).first = some (x.first.getD seen) ∧
            (t.dev.tmuOf n).start = x.start ∧ t.dev.tmuState n = d.tmuState n) ∧
          (x.mode ≠ 2 → x.stopCount ≤ x.edges + 1 → t.dev.tmuState n = tmuConverting ∧ (t.dev.tmuOf n).start = none ∧
            (t.dev.tmuOf n).left = x.left - 1 ∧ (t.dev.tmuOf n).ready = d.cycle + rearmTime x.mode ∧ ∃ m,
              (t.dev.tmuOf n).converting = x.converting ++ [m] ∧ m.status = 0 ∧ m.start = x.start ∧ m.last = some seen ∧
              m.edges = x.edges + 1))) ∧
    (∀ b, x.mode = 2 → x.start = some b →
      (b.1 + x.gate ≤ d.cycle → ∃ t, exec (.tmuGateClose n) st = .next t ∧ t.pending = st.pending ∧ frame t.dev ∧
        t.dev.tmuState n = tmuConverting ∧ (t.dev.tmuOf n).start = none ∧ (t.dev.tmuOf n).left = x.left - 1 ∧
        (t.dev.tmuOf n).converting =
          x.converting ++ [⟨if x.edges < 2 then 4 else 0, x.start, x.first, x.last, x.edges, x.fast⟩]) ∧
      (d.cycle < b.1 + x.gate → exec (.tmuGateClose n) st = .next st)) ∧
    (x.converting = [] → exec (.tmuResult n) st = .next st) ∧
    ∀ (m : TmuDone) (rest : List TmuDone) (a b : Nat × Nat), x.converting = m :: rest → m.status = 0 →
      m.last = some b →
      (x.mode ≠ 2 → m.start = some a → ∃ t, exec (.tmuResult n) st = .next t ∧ t.pending = st.pending ∧
        t.dev.o (chanIx n) 0x2C =
          tmuRecord 0 x.mode x.seq (ux 64 (d.intervalFs n a b)) 0 (b.1 - a.1) a.2 b.2 ∧
        t.dev.o (chanIx n) 0x2D = (d.o (chanIx n) 0x2D + 1) % 2 ^ 32 ∧ (t.dev.tmuOf n).seq = x.seq + 1 ∧
        (t.dev.tmuOf n).converting = rest ∧ shows t.dev ∧ t.dev.mem.sdram = d.mem.sdram ∧
        ∀ k, k ≠ n.val → t.dev.tmuOf k = d.tmuOf k) ∧
      (x.mode = 2 → m.fast = false → m.first = some a → ∃ t, exec (.tmuResult n) st = .next t ∧ t.pending = st.pending ∧
        let fs := d.spanFs n x.stopIn.source x.stopIn.source a b
        t.dev.o (chanIx n) 0x2C = tmuRecord 0 2 x.seq (ux 64 fs) m.edges (b.1 - a.1) a.2 b.2 ∧
        t.dev.o (chanIx n) 0x2F = f32 ((m.edges - 1) * 1000000000000000) (ux 64 fs) ∧
        (t.dev.tmuOf n).converting = rest ∧ shows t.dev)

/-- With no site commit waiting, processing changes nothing; the oldest one is refused with its code, or its mask and settings
become active, the site reads IDLE (DISABLED with no quad) and its lead and tiles follow the mask. A host start in the future
waits; a site whose start source is another counts it as ignored. A start that takes effect on an IDLE site with a flow
counts a flow, clears the fail count and fetches the entry record; the same start does so at its ring time and not before. A
line without a rising edge starts nothing. A re-arm empties the first-fail record. A fail-log entry is closed after 10 us
without a record and enters the fail queue, where the memory takes it. That a DISABLED site that names the line counts
nothing (log entry 35), and that a time of zero or in the past acts in the command's own step (log entry 19), is the model's
choice. -/
def Obligations.SitesCommitAndStart : Prop :=
  ∀ (st : State), st.running →
    let d := st.dev
    let started (s : Nat) (e : Device) : Prop :=
      e.o (siteIx s) 0x3E = (d.o (siteIx s) 0x3E + 1) % 2 ^ 32 ∧ e.siteFails s = 0 ∧ e.o (siteIx s) 0x33 = d.act (siteIx s) 0x1A ∧
      (e.flowOf s).recNo = d.act (siteIx s) 0x1A ∧ Cells.read 0 s e.sites.starts = 0 ∧
      e.o (siteIx s) 0x3D = d.o (siteIx s) 0x3D
    let startable (s : Nat) : Prop :=
      d.siteState s = siteIdle ∧ d.act (siteIx s) 0x19 ≠ 0 ∧ d.stopping = false ∧ d.failed = false ∧ s ∉ d.sites.woken ∧ d.cfeRuns s = true ∧
      d.resultQueue s < 262144
    ((∀ s, Block.site s ∉ d.pend) → exec .siteCommitProcess st = .next st) ∧
    (∀ (s : Site) (before after : List Block), d.pend = before ++ .site s :: after → (∀ k, Block.site k ∉ before) →
      (siteCheck s d ≠ 0 → ∃ t, exec .siteCommitProcess st = .next t ∧ t.pending = st.pending ∧
        d.commitRefused t.dev (.site s) (siteKeys s) (siteStatusKey s) (siteCheck s d)) ∧
      (siteCheck s d = 0 → ∃ t, exec .siteCommitProcess st = .next t ∧ t.pending = st.pending ∧
        (∀ k ∈ siteKeys s, t.dev.get (akey k) = d.get (pkey k)) ∧ t.dev.get (siteStatusKey s) = codeAccepted ∧
        t.dev.siteMask s = d.pendMask s ∧ t.dev.siteState s = (if d.pendMask s = 0 then siteDisabled else siteIdle) ∧
        t.dev.leadQuad s = (maskQuads (d.pendMask s)).headD 255 ∧ t.dev.o (siteIx s) 0x06 = maskTiles (d.pendMask s) ∧
        ∀ j < 128, j ≠ s.val → t.dev.siteMask j = d.siteMask j ∧ t.dev.siteState j = d.siteState j)) ∧
    (∀ (p : Port) (sites : BitVec 128) (time : BitVec 64),
      d.accepts p 0x1000 0x20 (sites.toNat + 2 ^ 128 * time.toNat) false →
      ((∀ s < 128, sites.toNat.testBit s = true → d.o (siteIx s) 0x07 ≠ 32) →
        ∃ t, exec (.siteStart p sites time) st = .next t ∧ t.pending = st.pending ∧
          d.OnlyKeys t.dev ((List.range 128).map fun s => okey (siteIx s) 0x3D) ∧
          ∀ s < 128, t.dev.o (siteIx s) 0x3D =
            (if sites.toNat.testBit s then min (d.o (siteIx s) 0x3D + 1) (2 ^ 32 - 1) else d.o (siteIx s) 0x3D)) ∧
      ((∀ s < 128, sites.toNat.testBit s = true → d.o (siteIx s) 0x07 = 32) → d.ringNs < time.toNat →
        ∃ t, exec (.siteStart p sites time) st = .next t ∧ t.pending = st.pending ∧
          t.dev = { d with sites := { d.sites with starts := t.dev.sites.starts } } ∧
          ∀ s < 128, Cells.read 0 s t.dev.sites.starts =
            (if sites.toNat.testBit s then time.toNat else Cells.read 0 s d.sites.starts)) ∧
      (∀ s < 128, sites.toNat = 2 ^ s → d.o (siteIx s) 0x07 = 32 → time.toNat ≤ d.ringNs →
        startable s → ∃ t, exec (.siteStart p sites time) st = .next t ∧ t.pending = st.pending ∧ started s t.dev)) ∧
    (∀ (s : Site) (due : Nat), due = Cells.read 0 s.val d.sites.starts →
      (due = 0 ∨ d.ringNs < due → exec (.startTimeReached s) st = .next st) ∧
      (due ≠ 0 → due ≤ d.ringNs → startable s →
        ∃ t, exec (.startTimeReached s) st = .next t ∧ t.pending = st.pending ∧ started s t.dev) ∧
      (due ≠ 0 → due ≤ d.ringNs → d.siteState s ≠ siteIdle →
        ∃ t, exec (.startTimeReached s) st = .next t ∧ t.pending = st.pending ∧ Cells.read 0 s.val t.dev.sites.starts = 0 ∧
          t.dev.objs = (d.addSat (siteIx s) 0x3D 4 1).objs ∧ t.dev.sites.flow = d.sites.flow)) ∧
    (∀ (l : Line),
      (d.linesAsserted.testBit l = false ∨ d.event.linePrev.testBit l = true ∨
        (∀ s < 128, d.siteMask s ≠ 0 → d.o (siteIx s) 0x07 ≠ l) → exec (.triggerLineStart l) st = .next st) ∧
      (d.linesAsserted.testBit l = true → d.event.linePrev.testBit l = false → ∀ s < 128, d.siteMask s ≠ 0 →
        d.o (siteIx s) 0x07 = l → (∀ j < 128, j ≠ s → d.siteMask j ≠ 0 → d.o (siteIx j) 0x07 ≠ l) →
        (d.siteState s ≠ siteIdle → ∃ t, exec (.triggerLineStart l) st = .next t ∧ t.pending = st.pending ∧
          d.OnlyKeys t.dev [okey (siteIx s) 0x3D] ∧ t.dev.o (siteIx s) 0x3D = min (d.o (siteIx s) 0x3D + 1) (2 ^ 32 - 1)) ∧
        (startable s → Cells.read 0 s d.sites.starts = 0 →
          ∃ t, exec (.triggerLineStart l) st = .next t ∧ t.pending = st.pending ∧ started s t.dev))) ∧
    (∀ (p : Port) (s : Site) (v : Byte), d.accepts p (siteIx s) 0x3B v.toNat false →
      ∃ t, exec (.firstFailRearm p s v) st = .next t ∧ t.pending = st.pending ∧ d.OnlyKeys t.dev [okey (siteIx s) 0x3A] ∧
        t.dev.o (siteIx s) 0x3A = 0) ∧
    (∀ (s : Site) (f : Flow) (q : Nat), f = d.flowOf s → q = d.failQueue s →
      (f.logEntry = [] ∨ d.cycle < f.logSince + 10000 → exec (.failLogEntryClose s) st = .next st) ∧
      (f.logEntry ≠ [] → f.logSince + 10000 ≤ d.cycle → q < 262144 → (d.queueOf q).reserved ≠ 0 → d.outstanding q ≠ 0 →
        d.copiesDiffer q = false → (d.queueOf q).waiting = [] → d.bodyTakes q = true →
        ∃ t, exec (.failLogEntryClose s) st = .next t ∧ t.pending = st.pending ∧
          t.dev.flowOf s = { f with logEntry := [] } ∧ t.dev.qo q 0x10 = d.qo q 0x10 + 1 ∧
          t.dev.qo q 0x13 = d.qo q 0x13 - 1 ∧ ∀ j, j ≠ s.val → t.dev.flowOf j = d.flowOf j))

/-- A step begins at its boundary. A site that is held reads WAITING and its flow stays. BIN sets the bin and passes. DATALOG
takes the selected value and passes. BRANCH passes or fails by its test, with NEG, and counts down where it says. SETTLE with
no time and no channel passes at once, else it ends when the time is over and the channel reads settled. PARAM-MEASURE fails
where the required state does not hold, else runs, and ends on its last sample with the reduced value against the limits.
DPS-SET waits for its commit or is refused. CALIBRATE-POINT waits for its tiles. END without a credit waits for one, else
ends the flow with PASS. -/
def Obligations.StepsRun : Prop :=
  ∀ (st : State) (s : Site), st.running →
    let d := st.dev
    let f := d.flowOf s
    let r := f.record
    let lead := quadIx (d.leadQuad s)
    let frame (e : Device) (ks : List Nat) : Prop :=
      e = { d with objs := e.objs, sites := { d.sites with flow := e.sites.flow } } ∧ d.sameBut e (okey (siteIx s) 0x05 :: ks) ∧
      (∀ j, j ≠ s.val → e.flowOf j = d.flowOf j)
    let runs (e : Device) : Prop := e.siteState s = siteRunning ∧ (e.flowOf s).phase = .running ∧ (e.flowOf s).begin_ = d.ringNs ∧
      (e.flowOf s).beginCycle = d.cycle ∧ (e.flowOf s).record = r
    let ends (e : Device) (code : Nat) : Prop := e.siteState s = siteRunning ∧ (e.flowOf s).phase = .complete ∧
      (e.flowOf s).result = code ∧ (e.flowOf s).begin_ = d.ringNs ∧ (e.flowOf s).end_ = d.ringNs ∧ (e.flowOf s).record = r
    (f.phase = .boundary → d.siteHeld s = true → ∀ i ∈ ([(1, .admissionRequest s), (2, .paramMeasure s), (3, .dpsSet s), (4, .settle s), (5, .branch s),
        (6, .bin s), (7, .datalog s), (8, .calibratePoint s), (15, .endStep s)] : List (Nat × Instr)), recOpcode r = i.1 →
      ∃ t, exec i.2 st = .next t ∧ t.pending = st.pending ∧ t.dev.siteState s = siteWaiting ∧ t.dev.sites = d.sites ∧
        d.OnlySettled t.dev [okey (siteIx s) 0x05] (List.range 8)) ∧
    (f.phase = .boundary → d.siteHeld s = false →
      (recOpcode r = opBin → ∃ t, exec (.bin s) st = .next t ∧ t.pending = st.pending ∧
        frame t.dev [okey (siteIx s) 0x38, okey (siteIx s) 0x39] ∧ ends t.dev 0 ∧ t.dev.o (siteIx s) 0x38 = fld r 8 2 % 1024 ∧
        t.dev.o (siteIx s) 0x39 = fld r 8 2 / 1024 % 32) ∧
      (recOpcode r = opDatalog → ∃ t, exec (.datalog s) st = .next t ∧ t.pending = st.pending ∧ frame t.dev [] ∧ ends t.dev 0 ∧
        (t.dev.flowOf s).valueOk = true ∧ (t.dev.flowOf s).value =
          (let k := fld r 14 2
           match fld r 12 1 with
           | 0 => (fld (d.o lead 0x68) (4 * k) 4 : Nat)
           | 1 => (d.o lead 0x69 : Nat)
           | 2 => (d.o (clusterIx ((d.siteChans s).getD k 0 / 16)) (0x10 + (d.siteChans s).getD k 0 % 16) : Nat)
           | 3 => (d.siteFails s : Nat)
           | 4 => f.lastValue
           | _ => (d.ringNs : Nat))) ∧
      (recOpcode r = opBranch → let k := fld r 12 1 - 16
        let v := d.branchTest s != bit (fld r 13 1) 0
        ∃ t, exec (.branch s) st = .next t ∧ t.pending = st.pending ∧ frame t.dev [okey lead 0x68] ∧
          ends t.dev (if v then 0 else 1) ∧ (bit (fld r 13 1) 1 = false → t.dev.o lead 0x68 = d.o lead 0x68) ∧
          (bit (fld r 13 1) 1 = true → counterOf (t.dev.seqCounters s) k = counterOf (d.seqCounters s) k - 1)) ∧
      (recOpcode r = opSettle → ∃ t, exec (.settle s) st = .next t ∧ t.pending = st.pending ∧ frame t.dev [] ∧
        (fld r 16 4 = 0 → fld r 12 1 = 255 → ends t.dev 0) ∧ (fld r 16 4 ≠ 0 ∨ fld r 12 1 ≠ 255 → runs t.dev)) ∧
      (recOpcode r = opParamMeasure → ∃ t, exec (.paramMeasure s) st = .next t ∧ t.pending = st.pending ∧
        (d.measMismatch s r = true → frame t.dev [] ∧ ends t.dev 10) ∧
        (d.measMismatch s r = false → measKind r < 4 → frame t.dev [] ∧ runs t.dev)) ∧
      (recOpcode r = opDpsSet → let k := fld r 12 1
        ∃ t, exec (.dpsSet s) st = .next t ∧ t.pending = st.pending ∧ t.dev.o (dpsIx k) 0x01 = 1 ∧ t.dev.o (dpsIx k) 0x02 = code24 (fld r 16 4) ∧
          t.dev.o (dpsIx k) 0x03 = fld r 13 1 ∧ t.dev.o (dpsIx k) 0x05 = fld r 20 4 ∧
          t.dev.o (dpsIx k) 0x04 = fld r 24 4 ∧
          (t.dev.get (dpsStatusKey k) = codePending → runs t.dev ∧ t.dev.pends (.dps k) = true) ∧
          (t.dev.get (dpsStatusKey k) ≠ codePending → ends t.dev 13 ∧ t.dev.pends (.dps k) = false) ∧
          ∀ j ∈ dpsKeys k, t.dev.get (akey j) = d.get (akey j)) ∧
      (recOpcode r = opCalibrate → ∃ t, exec (.calibratePoint s) st = .next t ∧ t.pending = st.pending ∧
        ((∀ k ∈ d.siteTiles s, t.dev.calState k = 0) → (t.dev.flowOf s).phase = .complete ∧ (t.dev.flowOf s).result = 0) ∧
        ((∃ k ∈ d.siteTiles s, t.dev.calState k ≠ 0) → (t.dev.flowOf s).phase = .running ∧
          ∀ k < 8, bit (t.dev.flowOf s).calTiles k = (decide (k ∈ d.siteTiles s) && t.dev.calState k != 0))) ∧
      (recOpcode r = opEnd → d.resultQueue s < 262144 →
        ∃ t, exec (.endStep s) st = .next t ∧ t.pending = st.pending ∧
          (d.recordRoom s = true → t.dev.siteState s = siteIdle ∧ t.dev.o (siteIx s) 0x32 = 0 ∧ t.dev.o (siteIx s) 0x35 = 100 ∧
            (t.dev.flowOf s).phase = .idle ∧ (t.dev.flowOf s).seq = f.seq + 1 ∧ fld (t.dev.o (siteIx s) 0x3F) 0 1 = 3) ∧
          (d.recordRoom s = false → t.dev.siteState s = siteWaiting ∧ (t.dev.flowOf s).phase = .endCredit ∧
            (t.dev.flowOf s).ending = some 0) ∧
          t.dev.o (siteIx s) 0x38 = (if d.o (siteIx s) 0x38 = 0xFFFF then binSoft (d.act (siteIx s) 0x23) else d.o (siteIx s) 0x38))) ∧
    (f.phase = .running → recOpcode r = opSettle →
      (f.beginCycle + fld r 16 4 ≤ d.cycle → fld r 12 1 = 255 ∨ d.o (dpsIx (fld r 12 1)) 0x23 = 3 →
        ∃ t, exec (.settleDone s) st = .next t ∧ t.pending = st.pending ∧ t.dev = { d with sites := { d.sites with flow := t.dev.sites.flow } } ∧
          t.dev.flowOf s = { f with phase := .complete, result := 0, end_ := d.ringNs }) ∧
      (d.cycle < f.beginCycle + fld r 16 4 → exec (.settleDone s) st = .next st)) ∧
    (f.phase = .running → recOpcode r = opParamMeasure → ∀ v, v = (if measReduction r = 0 then f.acc.tdiv (measCount r) else f.acc) →
      (f.samples < measCount r → exec (.measurementDone s) st = .next st) ∧
      (measCount r ≤ f.samples → ∃ t, exec (.measurementDone s) st = .next t ∧ t.pending = st.pending ∧
        t.dev = { d with sites := { d.sites with flow := t.dev.sites.flow } } ∧
        t.dev.flowOf s = { f with value := v, valueOk := true, phase := .complete, end_ := d.ringNs,
                                  result := if withinLimits r v then 0 else 1 }))

/-- A completed step counts; with no credit the site waits, else its record is written, with its code, and a step whose code is
not one that ends the flow goes on to the record that the code names. The value that a PARAM-MEASURE ends with is DATALOG's
from then on; an END step that is aborted writes the FLOW record alone. A RUN-PATTERN step whose descriptor is wrong ends
with its code; one whose demand fits is admitted, one whose does not is refused with NOT-ADMITTED where a successor is named,
else waits and is repeated once grants were released and the site is not held, to the wait limit, counted from the first
refusal (log entry 38: the model's choice). A pattern begins in preload, ends with PERIOD-MISMATCH, or waits while its site
is held. An abort or the timeout ends a step that runs with its code, and an abort of a held step reports it. -/
def Obligations.StepEndsAndAdmission : Prop :=
  ∀ (st : State) (s : Site), st.running →
    let d := st.dev
    let f := d.flowOf s
    let r := f.record
    let off := descOffset r
    let demand := d.streamDemand s off ++ d.logDemand s
    let held (e : Device) (code retries : Nat) : Prop := (e.flowOf s).phase = .complete ∧ (e.flowOf s).result = code ∧
      (e.flowOf s).begin_ = d.ringNs ∧ (e.flowOf s).end_ = d.ringNs ∧ (e.flowOf s).retries = retries ∧ e.objs = d.objs
    let admission (i : Instr) (retries : Nat) : Prop := ∃ t, exec i st = .next t ∧ t.pending = st.pending ∧
      (d.demandFits demand = true → (t.dev.flowOf s).phase = .admitted ∧ t.dev.siteState s = siteRunning ∧
        (∀ p ∈ demand, p.2 ≠ 0 → ∃ g ∈ t.dev.mem.grants, g.owner = s ∧ p ∈ g.slots ∧ g.inForce = false)) ∧
      (d.demandFits demand = false → t.dev.mem.grants = d.mem.grants ∧
        (recNotAdmitted r ≠ 0xFFFF → held t.dev 2 retries) ∧
        (recNotAdmitted r = 0xFFFF → (t.dev.flowOf s).phase = .admission ∧ t.dev.siteState s = siteWaiting ∧
          (t.dev.flowOf s).retries = retries ∧ (t.dev.flowOf s).waitSince = some (f.waitSince.getD d.cycle)))
    (f.phase ≠ .complete ∨ d.siteClocked s = false → exec (.stepComplete s) st = .next st) ∧
    (f.phase = .complete → d.siteClocked s = true → recOpcode r = opEnd → f.result = 17 → f.ending = none → d.act (siteIx s) 0x1B = 0xFFFF →
      d.recordRoom s = true → d.resultQueue s < 262144 →
      ∃ t, exec (.stepComplete s) st = .next t ∧ t.pending = st.pending ∧ t.dev.siteState s = siteIdle ∧
        (t.dev.flowOf s).seq = f.seq + 1 ∧ fld (t.dev.o (siteIx s) 0x3F) 0 1 = 3) ∧
    (f.phase = .complete → d.siteClocked s = true → recOpcode r ≠ opEnd → d.recordRoom s = false →
      ∃ t, exec (.stepComplete s) st = .next t ∧ t.pending = st.pending ∧ t.dev.siteState s = siteWaiting ∧
        (t.dev.flowOf s).phase = .credit ∧ t.dev.o (siteIx s) 0x34 = (d.o (siteIx s) 0x34 + 1) % 2 ^ 32) ∧
    (d.siteClocked s = true → d.recordRoom s = true → d.resultQueue s < 262144 → d.queuePlacement (d.resultQueue s) = 0 →
      d.copiesDiffer (d.resultQueue s) = false → recOpcode r ≠ opEnd →
      f.ending = none → f.aborting = false → f.result < 15 → d.act (siteIx s) 0x21 = 0 → ∀ n, n = successor r f.result →
      let next := ofLE (d.sramRead (d.recordKey s n) 32)
      d.fetchError s n next = none →
      ∀ i ∈ ([(.complete, .stepComplete s), (.credit, .resultRecordWrite s)] : List (FlowPhase × Instr)), f.phase = i.1 →
      ∃ t, exec i.2 st = .next t ∧ t.pending = st.pending ∧ t.dev.o (siteIx s) 0x33 = n ∧ (t.dev.flowOf s).phase = .boundary ∧
        (t.dev.flowOf s).record = next ∧ (t.dev.flowOf s).seq = f.seq + 1 ∧
        fld (t.dev.o (siteIx s) 0x3F) 0 1 = (if recOpcode r = 7 then 2 else 1) ∧
        fld (t.dev.o (siteIx s) 0x3F) 4 4 = recTest r ∧ fld (t.dev.o (siteIx s) 0x3F) 9 1 = f.result ∧
        (recOpcode r ≠ 1 → fld (t.dev.o (siteIx s) 0x3F) 40 8 = ux 64 f.value) ∧
        (f.phase = .complete → (t.dev.flowOf s).lastValue = if recOpcode r = opParamMeasure then f.value else f.lastValue) ∧
        ((d.queueOf (d.resultQueue s)).waiting = [] → d.bodyTakes (d.resultQueue s) = true →
          t.dev.qo (d.resultQueue s) 0x10 = d.qo (d.resultQueue s) 0x10 + 1)) ∧
    (d.recordRoom s = false → exec (.resultRecordWrite s) st = .next st) ∧
    (f.phase = .boundary → recOpcode r = 1 → d.siteHeld s = false →
      (d.descResult s off ≠ 0 → ∃ t, exec (.admissionRequest s) st = .next t ∧ t.pending = st.pending ∧
        held t.dev (d.descResult s off) f.retries) ∧
      (d.descResult s off = 0 → admission (.admissionRequest s) f.retries)) ∧
    (f.phase = .admission → d.siteHeld s = false → d.siteClocked s = true → d.retryDue s = true →
      admission (.admissionRetry s) (f.retries + 1)) ∧
    (f.phase ≠ .admission ∨ d.siteHeld s = true ∨ d.siteClocked s = false ∨ d.retryDue s = false →
      exec (.admissionRetry s) st = .next st) ∧
    (f.phase ≠ .admission → exec (.admissionWaitExpiry s) st = .next st) ∧
    (f.phase = .admission → ∀ c limit, f.waitSince = some c → limit = d.act (siteIx s) 0x22 →
      (limit = 0 ∨ d.cycle < c + 1000 * limit → exec (.admissionWaitExpiry s) st = .next st) ∧
      (limit ≠ 0 → c + 1000 * limit ≤ d.cycle →
        ∃ t, exec (.admissionWaitExpiry s) st = .next t ∧ t.pending = st.pending ∧ held t.dev 2 f.retries)) ∧
    (f.phase ≠ .admitted ∨ d.siteClocked s = false → exec (.runPattern s) st = .next st) ∧
    (f.phase = .admitted → d.siteClocked s = true → d.siteHeld s = true → ∃ t, exec (.runPattern s) st = .next t ∧
      t.pending = st.pending ∧ t.dev.siteState s = siteWaiting ∧ t.dev.sites = d.sites ∧
      d.OnlySettled t.dev [okey (siteIx s) 0x05] (List.range 8)) ∧
    (f.phase = .admitted → d.siteClocked s = true → d.siteHeld s = false → d.failQueue s = noQueue →
      (d.periodsDiffer s = true → ∃ t, exec (.runPattern s) st = .next t ∧ t.pending = st.pending ∧
        (t.dev.flowOf s).phase = .complete ∧ (t.dev.flowOf s).result = 8 ∧
        ∀ g ∈ t.dev.mem.grants, g.owner = s → g.released = true) ∧
      (d.periodsDiffer s = false → fld r 16 4 = 0 → let x := d.descriptor (d.leadQuad s / 16) off
        ∃ t, exec (.runPattern s) st = .next t ∧ t.pending = st.pending ∧ (t.dev.flowOf s).phase = .running ∧
          (t.dev.flowOf s).begin_ = d.ringNs ∧ (t.dev.seqOf s).phase = .preload ∧ (t.dev.seqOf s).next = descEntry x ∧
          (t.dev.seqOf s).blocks = descBlocks x ∧ (t.dev.seqOf s).items = [] ∧ (t.dev.seqOf s).vectors = 0 ∧
          ∀ q ∈ d.siteQuads s, (t.dev.streamOf q).base = entryBase (d.descriptor (q / 16) off) (q % 16) ∧
            (t.dev.streamOf q).length = entryLength (d.descriptor (q / 16) off) (q % 16))) ∧
    (∀ (p : Port) (v : Byte), d.accepts p (siteIx s) 0x31 v.toNat false →
      (d.siteBusy s = false → exec (.abort p s v) st = .next st) ∧
      (d.siteBusy s = true → f.phase = .boundary → ∃ t, exec (.abort p s v) st = .next t ∧ t.pending = st.pending ∧
        t.dev.flowOf s = { f with phase := .complete, result := 17, begin_ := d.ringNs, end_ := d.ringNs, beginFails := d.siteFails s } ∧
        d.OnlySettled { t.dev with sites := { t.dev.sites with flow := d.sites.flow } } [] (List.range 8)) ∧
      (d.siteBusy s = true → f.phase = .running → recOpcode r ≠ 1 → ∃ t, exec (.abort p s v) st = .next t ∧
        t.pending = st.pending ∧ t.dev.flowOf s = { f with phase := .complete, result := 17, end_ := d.ringNs } ∧
        t.dev = { d with sites := { d.sites with flow := t.dev.sites.flow } }) ∧
      (d.siteBusy s = true → f.phase = .complete ∨ f.phase = .credit → ∃ t, exec (.abort p s v) st = .next t ∧
        t.pending = st.pending ∧ t.dev.flowOf s = { f with aborting := true } ∧
        t.dev = { d with sites := { d.sites with flow := t.dev.sites.flow } })) ∧
    (∀ limit, limit = d.act (siteIx s) 0x20 →
      (limit = 0 ∨ d.cycle < f.beginCycle + 1000 * limit → exec (.stepTimeout s) st = .next st) ∧
      (limit ≠ 0 → f.beginCycle + 1000 * limit ≤ d.cycle → f.phase = .running →
        ∃ t, exec (.stepTimeout s) st = .next t ∧ t.pending = st.pending ∧
          (recOpcode r ≠ 1 → t.dev = { d with sites := { d.sites with flow := t.dev.sites.flow } } ∧
            t.dev.flowOf s = { f with phase := .complete, result := 12, end_ := d.ringNs }) ∧
          (recOpcode r = 1 → (d.seqOf s).phase = .play → (t.dev.flowOf s).result = 12 ∧ (t.dev.seqOf s).phase = .ending ∧
            (t.dev.seqOf s).reason = haltStopped)))

/-- A DPS sample is discarded while discards are left, and else shown, counted and kept for the next sample set; a gang member
takes none, and a channel whose measurement path a LEVEL run has switched neither. The current is limited to 110 % of full
scale. Samples count into the band only while the channel neither ramps nor is clamped, and the three alarms need a channel
that forces (log entry 46: the model's choice). On a channel that forces its output a clamp engages once, an open sense is
taken once and lost headroom each time, and each is an alarm: counted, with its cause bit, and raising the cluster's source
unless one of the same tick has; with alarm action 0 the output stays, with action 2 it disconnects at once. On a channel
that does not force it none of them does anything. A release ends the clamp. A charge clear waits for the next tick. No other
channel changes. -/
def Obligations.DpsSamplesClampsAndAlarms : Prop :=
  ∀ (st : State) (k : Dps), st.running →
    let d := st.dev
    let x := d.dpsOf k
    let frame (e : Device) (ks : List Nat) : Prop :=
      e = { d with objs := e.objs, event := { d.event with raised := e.event.raised, snap := e.event.snap },
                   dps := { d.dps with chan := e.dps.chan, conv := e.dps.conv }, sites := { d.sites with flow := e.sites.flow } } ∧
      (∀ j, j ≠ k.val → e.dpsOf j = d.dpsOf j ∧ e.dpsConvOf j = d.dpsConvOf j) ∧ d.sameBut e (ks.map (okey (dpsIx k)))
    let alarm (e : Device) (cause : Nat) : Prop :=
      frame e [0x82, 0x23, 0x24, 0x27, 0x2E] ∧
      e.o (dpsIx k) 0x27 = min (d.o (dpsIx k) 0x27 + 1) (2 ^ 32 - 1) ∧
      e.o (dpsIx k) 0x24 = d.o (dpsIx k) 0x24 ||| 2 ^ cause ∧ (e.dpsOf k).alarmed = true ∧
      (x.alarmed = true → e.event = d.event) ∧
      (x.alarmed = false → ∃ y, e.event.raised = d.event.raised ++ [y] ∧ y.src = clusterSource (k / 2) 2) ∧
      (d.act (dpsIx k) 0x0A = 2 → (e.dpsOf k).disconnected = true ∧ (e.dpsOf k).connected = false ∧ e.o (dpsIx k) 0x23 = 5) ∧
      (d.act (dpsIx k) 0x0A = 0 → (e.dpsOf k).disconnected = x.disconnected ∧ (e.dpsOf k).ramp = x.ramp ∧
        e.act (dpsIx k) 0x02 = d.act (dpsIx k) 0x02)
    (∀ (uv cur : Int),
      (d.isMember k = true ∨ d.pathSwitched k = true → exec (.dpsSample k uv cur) st = .next st) ∧
      (d.isMember k = false → d.pathSwitched k = false → x.skip ≠ 0 → ∃ t, exec (.dpsSample k uv cur) st = .next t ∧ t.pending = st.pending ∧
        frame t.dev [] ∧ t.dev.dpsOf k = { x with skip := x.skip - 1 }) ∧
      (d.isMember k = false → d.pathSwitched k = false → x.skip = 0 → ∀ lim : Int, lim = max (-9227468) (min 9227468 cur) →
        ∃ t, exec (.dpsSample k uv cur) st = .next t ∧ t.pending = st.pending ∧
        frame t.dev [0x20, 0x21, 0x22, 0x23] ∧ t.dev.o (dpsIx k) 0x20 = ux 32 uv ∧ t.dev.o (dpsIx k) 0x21 = ux 32 lim ∧
        t.dev.o (dpsIx k) 0x22 = (d.o (dpsIx k) 0x22 + 1) % 2 ^ 32 ∧ t.dev.dpsOf k = { x with inBand :=
          (if (uv - d.forceUv k).natAbs ≤ 10 * d.act (dpsIx k) 0x07 ∧ x.ramping = false ∧ x.clamped = false then min 4 (x.inBand + 1)
           else 0) } ∧
        t.dev.dpsConvOf k = { volt := some uv, cur := some lim, clamp := (d.dpsConvOf k).clamp || x.clamped } ∧
        t.dev.o (dpsIx k) 0x23 = t.dev.dpsStateOf k)) ∧
    (d.dpsForces k = true →
      (x.clamped = false → ∃ t, exec (.dpsClampEngage k) st = .next t ∧ t.pending = st.pending ∧ alarm t.dev 2 ∧
        (t.dev.dpsConvOf k).clamp = true ∧
        (d.act (dpsIx k) 0x0A = 0 → (t.dev.dpsOf k).clamped = true)) ∧
      (d.o (dpsIx k) 0x2E = 0 → ∃ t, exec (.senseOpen k) st = .next t ∧ t.pending = st.pending ∧ alarm t.dev 4 ∧
        t.dev.o (dpsIx k) 0x2E = 1) ∧
      ∃ t, exec (.headroom k) st = .next t ∧ t.pending = st.pending ∧ alarm t.dev 3) ∧
    (d.dpsForces k = false → exec (.dpsClampEngage k) st = .next st ∧ exec (.senseOpen k) st = .next st ∧
      exec (.headroom k) st = .next st) ∧
    (∃ t, exec (.dpsClampRelease k) st = .next t ∧ t.pending = st.pending ∧ frame t.dev [0x23] ∧
      t.dev.dpsOf k = { x with clamped := false } ∧ t.dev.o (dpsIx k) 0x23 = t.dev.dpsStateOf k) ∧
    (∀ (p : Port) (v : Byte), d.accepts p (dpsIx k) 0x2C v.toNat false →
      ∃ t, exec (.chargeClear p k v) st = .next t ∧ t.pending = st.pending ∧ frame t.dev [] ∧
        t.dev.dpsOf k = { x with clearAsked := true })

/-- A tick of an enabled voltage or current monitor of a channel that is no gang member moves its comparators by R87 and shows
the state; an alarm is counted exactly when the state becomes BELOW or ABOVE anew. A disabled one takes no tick. In a self-
check four ticks leave the state as it is, and a TIE keeps its good verdict while no comparator answers wrongly (that it asks
both is the model's choice, log entry 101). A self-check request 1 or 2 starts SWAP or TIE on the voltage monitor, 3 or 4 on
the current monitor, with result RUNNING, NOT-RUN where it is disabled; its end gives PASS or FAIL, a FAIL raising the source
with no alarm counted. -/
def Obligations.DpsMonitorsTickAndCheck : Prop :=
  ∀ (st : State) (k : Dps) (cur : Bool), st.running →
    let d := st.dev
    let m := d.dpsMon k cur
    let pl := placeOf cur
    (∀ (x : MonSample),
      let lo := d.acti (dpsIx k) (pl.first + 1)
      let hi := d.acti (dpsIx k) (pl.first + 2)
      (d.dpsMonEnabled k cur = false → exec (.dpsMonitorTick k cur x) st = .next st) ∧
      (d.dpsMonEnabled k cur = true → m.check ≠ 0 → 4 ≤ m.ticks → exec (.dpsMonitorTick k cur x) st = .next st) ∧
      (d.dpsMonEnabled k cur = true → m.check ≠ 0 → m.ticks < 4 → ∃ t good normal, exec (.dpsMonitorTick k cur x) st = .next t ∧
        t.pending = st.pending ∧ t.dev.objs = d.objs ∧ t.dev.event = d.event ∧
        t.dev.dpsMon k cur = { m with ticks := m.ticks + 1, good := good, normal := normal } ∧
        (m.check ≠ 1 → 0 ≤ d.acti (dpsIx k) (pl.first + 3) → 0 ≤ d.acti (dpsIx k) (pl.first + 4) →
          lo + d.acti (dpsIx k) (pl.first + 3) < hi - d.acti (dpsIx k) (pl.first + 4) →
          good = (m.good && !(x.lowBad || x.highBad)))) ∧
      (d.dpsMonEnabled k cur = true → m.check = 0 →
        let s := x.value
        let low := if s < lo then true else if lo + d.acti (dpsIx k) (pl.first + 3) < s then false else m.low
        let high := if hi < s then true else if s < hi - d.acti (dpsIx k) (pl.first + 4) then false else m.high
        let was := if m.low then 0 else if m.high then 2 else 1
        let now := if low then 0 else if high then 2 else 1
        ∃ t, exec (.dpsMonitorTick k cur x) st = .next t ∧ t.pending = st.pending ∧
          t.dev.dpsMon k cur = { m with low := low, high := high } ∧ t.dev.o (dpsIx k) pl.state = now ∧
          (now = was ∨ now = 1 → t.dev.o (dpsIx k) 0x27 = d.o (dpsIx k) 0x27 ∧ t.dev.event = d.event) ∧
          (now ≠ was → now ≠ 1 → t.dev.o (dpsIx k) 0x27 = min (d.o (dpsIx k) 0x27 + 1) (2 ^ 32 - 1) ∧
            bit (t.dev.o (dpsIx k) 0x24) (if cur then 1 else 0) = true))) ∧
    (∀ (p : Port) (v : Byte), d.accepts p (dpsIx k) 0x28 v.toNat false → cur = decide (3 ≤ v.toNat) →
      (d.dpsMonEnabled k cur = false → ∃ t, exec (.dpsSelfCheckRequest p k v) st = .next t ∧ t.pending = st.pending ∧
        d.OnlyKeys t.dev [okey (dpsIx k) pl.result] ∧ t.dev.o (dpsIx k) pl.result = 4) ∧
      (d.dpsMonEnabled k cur = true → m.check = 0 → ∃ t, exec (.dpsSelfCheckRequest p k v) st = .next t ∧
        t.pending = st.pending ∧ t.dev.o (dpsIx k) pl.result = 1 ∧ d.sameBut t.dev [okey (dpsIx k) pl.result] ∧
        t.dev.dpsMon k cur = { m with check := if v.toNat % 2 = 1 then 1 else 2, ticks := 0, normal := (false, false), good := true })) ∧
    (m.check ≠ 0 → 4 ≤ m.ticks →
      ∃ t, exec (.selfCheckComplete (if cur then .dpsI k else .dpsV k)) st = .next t ∧ t.pending = st.pending ∧
        t.dev.o (dpsIx k) pl.result = (if m.good then 2 else 3) ∧ d.sameBut t.dev [okey (dpsIx k) pl.result] ∧
        t.dev.dpsMon k cur = { m with check := 0, ticks := 0, normal := (false, false), good := true } ∧
        (m.good = true → t.dev.event = d.event) ∧
        (m.good = false → ∃ y, t.dev.event.raised = d.event.raised ++ [y] ∧ y.src = clusterSource (k / 2) 2))

/-- With no DPS block or gang map waiting, an update tick shows both rails' measured voltages, raises RAIL-W or RAIL-E where a
status bit becomes set, and adds each forcing channel's charge to its sum since the last grid instant; each channel that
forces its output and whose charge clear is not asked for adds the charge of the past microsecond to its accumulator, limited
to 64 bits; a channel that ramps comes nearer its set point by its rate and ends there; one asked to clear has its charge at
0. Every channel takes the coefficients in force. A rank that has ended gives way to the next; with none left every channel
that is ON disconnects and the shutdown is over. -/
def Obligations.DpsTickAndShutdown : Prop :=
  ∀ (st : State), st.running →
    let d := st.dev
    (∀ (railW railE : Int) (charge : List Int), (∀ k < 64, d.pends (.dps k) = false) → (∀ g < 8, d.pends (.gang g) = false) →
      ∃ t, exec (.dpsUpdateTick railW railE charge) st = .next t ∧ t.pending = st.pending ∧
        t.dev.o 0x1380 0x01 = ux 32 railW ∧ t.dev.o 0x1380 0x11 = ux 32 railE ∧ t.dev.mem = d.mem ∧ t.dev.sites = d.sites ∧
        (∀ h < 2, ∀ b < 2, bit (t.dev.o 0x1380 (16 * h + 5)) b = true → bit (d.o 0x1380 (16 * h + 5)) b = false →
          ∃ y ∈ t.dev.event.raised, y.src = 4 + h) ∧
        ∀ k < 64, let x := d.dpsOf k
          (t.dev.dpsOf k).coefs = d.coefsOf (k / 8) (129 + k % 8) ∧ (t.dev.dpsOf k).gridSum = (if d.dpsForces k then x.gridSum + charge.getD k 0 else x.gridSum) ∧
          (x.clearAsked = true → t.dev.o (dpsIx k) 0x2B = 0 ∧ t.dev.o (dpsIx k) 0x2D = 0 ∧ (t.dev.dpsOf k).clearAsked = false) ∧
          (x.clearAsked = false → d.dpsForces k = true →
            t.dev.o (dpsIx k) 0x2B = ux 64 (max (-(2 ^ 63 - 1)) (min (2 ^ 63 - 1)
              (sx 64 (d.o (dpsIx k) 0x2B) + charge.getD k 0)))) ∧
          (x.clearAsked = false → d.dpsForces k = false → t.dev.o (dpsIx k) 0x2B = d.o (dpsIx k) 0x2B) ∧
          (x.ramping = false → (t.dev.dpsOf k).ramp = x.ramp) ∧
          (x.ramping = true → (d.forceUv k - x.ramp).natAbs ≤ d.act (dpsIx k) 0x06 →
            (t.dev.dpsOf k).ramp = d.forceUv k ∧ (t.dev.dpsOf k).ramping = false) ∧
          (x.ramping = true → d.act (dpsIx k) 0x06 < (d.forceUv k - x.ramp).natAbs → (t.dev.dpsOf k).ramp =
            (if x.ramp < d.forceUv k then x.ramp + (d.act (dpsIx k) 0x06 : Nat) else x.ramp - (d.act (dpsIx k) 0x06 : Nat)))) ∧
    (d.dps.rank = none → exec .shutdownRankAdvance st = .next st) ∧
    (∀ r began, d.dps.rank = some (r, began) →
      (d.rankEnded r began = false → exec .shutdownRankAdvance st = .next st) ∧
      (d.rankEnded r began = true → (∀ q < r, ∀ k < 64, d.dpsForces k = true → d.act (dpsIx k) 0x09 ≠ q) →
        ∃ t, exec .shutdownRankAdvance st = .next t ∧ t.pending = st.pending ∧ t.dev.dps.rank = none ∧
          ∀ k < 64, d.dpsOn k = true → (t.dev.dpsOf k).disconnected = true ∧ (t.dev.dpsOf k).connected = false) ∧
      (∀ q < r, d.rankEnded r began = true → (∃ k < 64, d.dpsForces k = true ∧ d.act (dpsIx k) 0x09 = q) →
        (∀ i, q < i → i < r → ∀ k < 64, d.dpsForces k = true → d.act (dpsIx k) 0x09 ≠ i) →
        ∃ t, exec .shutdownRankAdvance st = .next t ∧ t.pending = st.pending ∧ t.dev.dps.rank = some (q, d.cycle) ∧
          ∀ k ∈ d.rankChans q, t.dev.act (dpsIx k) 0x02 = 0))

/-- An arm is refused with its reason, or admits the unit with its demand, slots and entries and its counts at 0; an armed unit
ignores it. A disarm closes a running capture, or ends the arm with its grant released and, from READY, its credits returned;
it does nothing on a unit that is not armed. A unit that waits for credits becomes READY when its queue has them for a
capture. A trigger of its source in READY begins a capture, and in another armed state is counted as missed. The auto timeout
asks for a forced one at the next sample set. -/
def Obligations.AcquisitionArmsAndTriggers : Prop :=
  ∀ (st : State) (c : Cluster), st.running →
    let d := st.dev
    (∀ (p : Port), d.accepts p (clusterIx c) 0x61 1 false →
      (d.acqArmed c = true → exec (.acquisitionArm p c) st = .next st) ∧
      (d.acqArmed c = false → d.acqRefusal c ≠ 0 → ∃ t, exec (.acquisitionArm p c) st = .next t ∧ t.pending = st.pending ∧
        d.OnlyKeys t.dev [okey (clusterIx c) 0x60, okey (clusterIx c) 0x63] ∧ t.dev.acqState c = acqRefused ∧
        t.dev.o (clusterIx c) 0x63 = d.acqRefusal c) ∧
      (d.acqArmed c = false → d.acqRefusal c = 0 → ∃ t, exec (.acquisitionArm p c) st = .next t ∧ t.pending = st.pending ∧
        t.dev.acqState c = acqAdmitting ∧ t.dev.acqOf c = Acq.init ∧ t.dev.o (clusterIx c) 0x63 = 0 ∧
        t.dev.o (clusterIx c) 0x64 = 0 ∧ t.dev.o (clusterIx c) 0x65 = 0 ∧ t.dev.o (clusterIx c) 0x66 = 0 ∧
        t.dev.o (clusterIx c) 0x67 = d.acqDemand c ∧ t.dev.o (clusterIx c) 0x68 = d.acqSlots c ∧
        t.dev.o (clusterIx c) 0x69 = d.acqEntries c ∧ ∀ j, j ≠ c.val → t.dev.acqOf j = d.acqOf j)) ∧
    (∀ (p : Port), d.accepts p (clusterIx c) 0x61 2 false →
      (d.acqState c = acqCapturing → ∃ t, exec (.acquisitionDisarm p c) st = .next t ∧ t.pending = st.pending ∧
        t.dev.acqState c = acqWriting ∧ (t.dev.acqOf c).disarmed = true) ∧
      (d.acqArmed c = true → d.acqState c ≠ acqCapturing → d.acqState c ≠ acqWriting →
        ∃ t, exec (.acquisitionDisarm p c) st = .next t ∧ t.pending = st.pending ∧ t.dev.acqState c = acqIdle ∧
          t.dev.acqOf c = d.acqOf c ∧ ∀ g ∈ t.dev.mem.grants, g.owner = acqOwner c → g.released = true) ∧
      (d.acqArmed c = false → exec (.acquisitionDisarm p c) st = .next st)) ∧
    (d.acqState c = acqCreditWait → d.canReserve (d.acqQueue c) (d.acqEntries c) = true →
      ¬(d.act (clusterIx c) 0x40 = 2 ∧ d.act (clusterIx c) 0x58 = 0) →
      ∃ t, exec (.acqReady c) st = .next t ∧ t.pending = st.pending ∧ t.dev.acqState c = acqReady ∧
        (t.dev.acqOf c).readySince = d.cycle ∧ d.OnlyKeys { t.dev with mem := d.mem, dps := d.dps } [okey (clusterIx c) 0x60] ∧
        (t.dev.queueOf (d.acqQueue c)).reserved = (d.queueOf (d.acqQueue c)).reserved + d.acqEntries c) ∧
    (d.acqState c ≠ acqCreditWait ∨ d.canReserve (d.acqQueue c) (d.acqEntries c) = false → exec (.acqReady c) st = .next st) ∧
    (∀ (p : Port) (v : Byte), d.accepts p (clusterIx c) 0x62 v.toNat false →
      (d.act (clusterIx c) 0x52 = 0 → d.act (clusterIx c) 0x53 = 0 → d.acqState c = acqReady → d.acqQ c ≠ 0 →
        ∃ t, exec (.hostTrigger p c v) st = .next t ∧ t.pending = st.pending ∧ t.dev.acqState c = acqCapturing ∧
          t.dev.o (clusterIx c) 0x6A = d.ringNs ∧ (t.dev.acqOf c).index = 0 ∧ (t.dev.acqOf c).forced = false) ∧
      (d.act (clusterIx c) 0x52 = 0 → d.act (clusterIx c) 0x53 = 0 → d.acqArmed c = true → d.acqState c ≠ acqReady →
        ∃ t, exec (.hostTrigger p c v) st = .next t ∧ t.pending = st.pending ∧ d.OnlyKeys t.dev [okey (clusterIx c) 0x65] ∧
          t.dev.o (clusterIx c) 0x65 = min (d.o (clusterIx c) 0x65 + 1) (2 ^ 32 - 1)) ∧
      (d.act (clusterIx c) 0x52 ≠ 0 ∨ d.acqArmed c = false → exec (.hostTrigger p c v) st = .next st)) ∧
    (d.acqState c = acqReady → d.act (clusterIx c) 0x40 = 2 →
      (d.cycle < (d.acqOf c).readySince + 1000 * d.act (clusterIx c) 0x58 → exec (.autoTimeout c) st = .next st) ∧
      ((d.acqOf c).readySince + 1000 * d.act (clusterIx c) 0x58 ≤ d.cycle →
        ∃ t, exec (.autoTimeout c) st = .next t ∧ t.pending = st.pending ∧ t.dev.objs = d.objs ∧ t.dev.mem = d.mem ∧
          t.dev.acqOf c = { d.acqOf c with forcing := true } ∧ ∀ j, j ≠ c.val → t.dev.acqOf j = d.acqOf j))

/-- In a unit with no LEVEL trigger, armed and past admission, a grid instant forms one sample set of what its converters gave,
or in the TMU class of the oldest offered result: outside a capture it joins the pre-trigger sets, of which the newest P are
kept; in one it is taken, and with the Q-th the capture is written. In READY a trigger that the auto timeout has forced
begins the capture with it. A grid instant begins a new interval of the converters, whether or not the unit is armed. A
capture that is written is counted and its unit returns to IDLE after a disarm, to DONE after the last of its captures, and
else waits for credits again. -/
def Obligations.SampleSetsAndCaptureEnd : Prop :=
  ∀ (st : State) (c : Cluster), st.running →
    let d := st.dev
    let x := d.acqOf c
    let forms : Prop := d.acqArmed c = true ∧ d.acqState c ≠ acqAdmitting
    let taken (set : List (Nat × Sample)) : Prop := ∃ t, exec (.sampleSet c) st = .next t ∧ t.pending = st.pending ∧
      (t.dev.acqOf c).pre = (x.pre ++ [set]).drop ((x.pre ++ [set]).length - d.acqP c) ∧
      (d.acqTmu c = true → (t.dev.acqOf c).offers = x.offers.drop 1) ∧
      (¬(x.forcing = true ∧ d.acqState c = acqReady) → (t.dev.acqOf c).index = x.index + 1 ∧
        (d.acqState c ≠ acqCapturing → t.dev.acqState c = d.acqState c ∧ t.dev.mem = d.mem ∧ t.dev.objs = d.objs) ∧
        (d.acqState c = acqCapturing → x.index + 1 < d.acqQ c → t.dev.acqState c = acqCapturing) ∧
        (d.acqState c = acqCapturing → d.acqQ c ≤ x.index + 1 → t.dev.acqState c = acqWriting)) ∧
      (x.forcing = true → d.acqState c = acqReady → d.acqQ c ≠ 0 → (t.dev.acqOf c).forced = true ∧ (t.dev.acqOf c).index = 1 ∧
        t.dev.o (clusterIx c) 0x66 = (d.o (clusterIx c) 0x66 + 1) % 2 ^ 32 ∧ t.dev.o (clusterIx c) 0x6A = d.ringNs ∧
        t.dev.acqState c = (if d.acqQ c ≤ 1 then acqWriting else acqCapturing))
    (d.acqTmu c = true → ¬forms ∨ x.offers = [] → exec (.sampleSet c) st = .next st) ∧
    (d.acqTmu c = false → ¬forms → ∃ t, exec (.sampleSet c) st = .next t ∧ t.pending = st.pending ∧
      t.dev = { d with pins := { d.pins with conv := t.dev.pins.conv },
                       dps := { d.dps with chan := t.dev.dps.chan, conv := t.dev.dps.conv } } ∧
      (∀ n, t.dev.convOf n = if n / 16 = c.val then Converted.init else d.convOf n) ∧
      ∀ k, t.dev.dpsConvOf k = (if k / 2 = c.val then Converted.init else d.dpsConvOf k) ∧
        t.dev.dpsOf k = if k / 2 = c.val then { d.dpsOf k with gridSum := 0 } else d.dpsOf k) ∧
    (forms → d.act (clusterIx c) 0x52 ≠ 3 →
      (d.acqTmu c = false → taken ((d.acqInputs c).map (d.adcSample c))) ∧
      ∀ p rest, d.acqTmu c = true → x.offers = p :: rest → taken [p]) ∧
    (d.acqState c ≠ acqWriting → exec (.captureComplete c) st = .next st) ∧
    (d.acqState c = acqWriting → ∃ t, exec (.captureComplete c) st = .next t ∧ t.pending = st.pending ∧
      t.dev.o (clusterIx c) 0x64 = (d.o (clusterIx c) 0x64 + 1) % 2 ^ 32 ∧ (t.dev.acqOf c).capture = x.capture + 1 ∧
      (t.dev.acqOf c).used = 0 ∧ (t.dev.acqOf c).red = [] ∧
      (x.disarmed = true → t.dev.acqState c = acqIdle) ∧
      (x.disarmed = false → d.act (clusterIx c) 0x40 = 1 → t.dev.acqState c = acqDone) ∧
      (x.disarmed = false → d.act (clusterIx c) 0x40 ≠ 1 → d.act (clusterIx c) 0x57 = 0 → t.dev.acqState c = acqCreditWait) ∧
      ∀ j, j ≠ c.val → t.dev.acqOf j = d.acqOf j ∧ t.dev.acqState j = d.acqState j)

/-- Before its boundary, outside play, with an event jump due, or after a failed boot, nothing commits. With no timing commit and
no SPLICE event jump waiting: a vector that can commit is numbered, its block becomes the committed one, its results are
awaited and the boundary moves by the lead's period; the first shows the start latency; a block with vectors left stays in
front. An effect before it acts at its boundary: TSET selects the set, which gives the period, LSET strobes every quad,
SIGNAL asks for its line, CAPT arms, triggers, opens a window, turns the log. A HALT ends the pattern with its code and
squashes what follows; a WAIT makes the site WAITING and its hold begins; in a hold the boundary moves and no vector commits.
With nothing to commit, no conditional and no gap, the pattern ends with UNDERRUN, but under STALL at a mark it stalls, which
is counted as it begins (logs 112 and 24: that nothing commits after a failed boot and when a stall counts are the model's
choice). -/
def Obligations.VectorsAndEffectsCommit : Prop :=
  ∀ (st : State) (s : Site), st.running →
    let d := st.dev
    let z := d.seqOf s
    let c := z.boundaryPs / 1000
    let p0 := d.quadPeriod (d.leadQuad s)
    (z.phase ≠ .play ∨ d.cycle < c ∨ jumpDue z = true ∨ d.failed = true → exec (.vectorCommit s) st = .next st) ∧
    (z.phase = .play → c ≤ d.cycle → jumpDue z = false → d.failed = false → (∀ q < 128, d.pends (.timing q) = false) →
      (∀ r j, z.request = some (r, j) → j.splice = false) →
      (∀ since input neg edge n f, z.hold = .wait since input neg edge n f →
        ∃ t, exec (.vectorCommit s) st = .next t ∧ t.pending = st.pending ∧
          t.dev.seqOf s = { z with boundaryPs := z.boundaryPs + p0 } ∧
          ∀ q ∈ d.siteQuads s, t.dev.o (quadIx q) 0x64 = d.o (quadIx q) 0x64) ∧
      (z.hold = .none ∨ z.hold = .result → ∀ (p : Play) (rest : List Item), z.items = .vectors p :: rest → d.canPlay s c p = true →
        ∃ t, exec (.vectorCommit s) st = .next t ∧ t.pending = st.pending ∧ (t.dev.seqOf s).vectors = z.vectors + 1 ∧
          (t.dev.seqOf s).boundaryPs = z.boundaryPs + p0 ∧ (t.dev.seqOf s).hold = .none ∧ (t.dev.seqOf s).phase = .play ∧
          (t.dev.seqOf s).lastJump = (if p.jumpPoint then some c else none) ∧
          (∃ f : Flight, (t.dev.seqOf s).flights = z.flights ++ [f] ∧ f.number = z.vectors ∧ f.commit = c ∧ f.blk = p.blk ∧
            f.window = z.window ∧ c + 160 ≤ f.due) ∧
          (∀ q ∈ d.siteQuads s, t.dev.o (quadIx q) 0x64 = z.vectors + 1 ∧ t.dev.o (quadIx q) 0x63 = p.blk) ∧
          (z.vectors = 0 → (t.dev.seqOf s).startPs = z.boundaryPs ∧
            ∀ q ∈ d.siteQuads s, t.dev.o (quadIx q) 0x73 = (z.boundaryPs + 16000) / 1000 - (d.flowOf s).beginCycle) ∧
          (p.done + 1 < p.total → ∃ p1 : Play, (t.dev.seqOf s).items = .vectors p1 :: rest ∧ p1.done = p.done + 1 ∧
            p1.total = p.total ∧ p1.blk = p.blk) ∧
          (p.total ≤ p.done + 1 → p.iter = 0 → (t.dev.seqOf s).items = rest)) ∧
      (z.hold = .none ∨ z.hold = .result →
        let carried (x : Effect) (does : Device → Prop) : Prop := ∀ blk sp r p rest, z.items = .effect blk x sp r :: .vectors p :: rest →
          r ≤ c → d.canPlay s c p = true → ∃ t, exec (.vectorCommit s) st = .next t ∧ t.pending = st.pending ∧
            (t.dev.seqOf s).vectors = z.vectors + 1 ∧ does t.dev
        (∀ k, carried (.tset k) fun e => (∀ q ∈ d.siteQuads s, e.o (quadIx q) 0x1D = k) ∧
          (d.leadQuad s ∈ d.siteQuads s →
            (e.seqOf s).boundaryPs = z.boundaryPs + timePeriod (d.act (quadIx (d.leadQuad s)) (0x20 + k)))) ∧
        (∀ k, carried (.lset k) fun e => ∀ q ∈ d.siteQuads s,
          e.o (quadIx q) 0x18 = k ∧ e.dacOf q = (levelStrobe q (some k) d).dacOf q ∧
          ((d.dacOf q).strobed ≠ d.cycle + 1 → e.o (quadIx q) 0x19 = (d.o (quadIx q) 0x19 + 1) % 2 ^ 32)) ∧
        (∀ l op, carried (.signal l op) fun e =>
          e.sites.signals = d.sites.signals ++ [⟨(z.boundaryPs + 16000) / 1000, s, l, op⟩]) ∧
        ∀ a, carried (.capt a) fun e =>
          (e.seqOf s).window = z.window + (if bit a 2 then 1 else 0) ∧
          (e.seqOf s).logOn = (if bitf a 3 2 = 0 then z.logOn else bitf a 3 2 == 1) ∧
          (bit a 0 = true → ∀ n ∈ d.siteChans s, bit (d.o (quadIx (n / 4)) 0x6B) (n % 4) = true → e.tmuState n =
            (if d.calibrating (n / 64) then tmuHeld else if d.tmuRefusal n ≠ 0 then tmuRefused
             else if d.o (chanIx n) 0x29 = 0 then tmuDone else tmuArmed)) ∧
          (bit a 1 = true → ∀ k < 32, (∃ q ∈ d.siteQuads s, q / 4 = k) → d.act (clusterIx k) 0x52 = 1 → d.act (clusterIx k) 0x53 = s →
            d.acqState k = acqReady → d.acqQ k ≠ 0 → e.acqState k = acqCapturing)) ∧
      (z.hold = .none ∨ z.hold = .result → ∀ blk code r rest, z.items = .effect blk (.halt code) false r :: rest → r ≤ c →
        ∃ t, exec (.vectorCommit s) st = .next t ∧ t.pending = st.pending ∧ (t.dev.seqOf s).phase = .ending ∧
          (t.dev.seqOf s).reason = 1 ∧ (t.dev.seqOf s).code = code ∧ (t.dev.seqOf s).haltPs = z.boundaryPs ∧
          (t.dev.seqOf s).items = [] ∧ (t.dev.seqOf s).issuing = false ∧ (t.dev.seqOf s).flights = z.flights ∧
          ∀ q ∈ d.siteQuads s, t.dev.o (quadIx q) 0x63 = blk) ∧
      (z.hold = .none ∨ z.hold = .result → ∀ blk input neg edge n f sp r rest, z.items = .effect blk (.wait input neg edge n f) sp r :: rest → r ≤ c →
        ∃ t, exec (.vectorCommit s) st = .next t ∧ t.pending = st.pending ∧ t.dev.siteState s = siteWaiting ∧
          (t.dev.seqOf s).hold = .wait c input neg edge n f ∧ (t.dev.seqOf s).items = rest ∧
          (t.dev.seqOf s).boundaryPs = z.boundaryPs + p0 ∧ (t.dev.seqOf s).vectors = z.vectors) ∧
      (z.hold = .none ∨ z.hold = .result → z.items = [] → z.cond = none → z.gapEnd ≤ c →
        (d.stallPolicy s ≠ 0 ∨ d.atMark s = false →
          ∃ t, exec (.vectorCommit s) st = .next t ∧ t.pending = st.pending ∧ (t.dev.seqOf s).phase = .ending ∧
            (t.dev.seqOf s).reason = 3 ∧ (t.dev.seqOf s).code = 0) ∧
        (d.stallPolicy s = 0 → d.atMark s = true →
          ∃ t, exec (.vectorCommit s) st = .next t ∧ t.pending = st.pending ∧ (t.dev.seqOf s).phase = .play ∧
            (∃ cause, (t.dev.seqOf s).hold = .stall c cause) ∧ (t.dev.seqOf s).stalls = z.stalls + 1 ∧
            t.dev.o (siteIx s) 0x10 = min (d.o (siteIx s) 0x10 + 1) (2 ^ 32 - 1) ∧
            (t.dev.seqOf s).boundaryPs = z.boundaryPs + p0)))

/-- A hold that is no WAIT, a condition that is not met and a timeout not reached change nothing. A WAIT that ends clears its
flag when the condition came, sets it at the timeout, makes the site RUNNING and issue resumes in this cycle. A result before
its cycle changes nothing. A vector with failing compares adds each to its channel and to the site, fills an empty first-fail
record and marks its window; one with none changes no count. The result before a WAIT-mode BIF FAIL, in a MATCH body too,
resolves it; one that ends a passing MATCH iteration ends the MATCH, sets its flag and writes the iteration's number, and
counts no fail. -/
def Obligations.WaitsEndAndResultsArrive : Prop :=
  ∀ (st : State) (s : Site), st.running →
    let d := st.dev
    let z := d.seqOf s
    let lead := quadIx (d.leadQuad s)
    let resumed (e : Device) (gap : Bool) : Prop := (e.seqOf s).hold = .none ∧ (e.seqOf s).issuing = true ∧
      (e.seqOf s).issueFree = d.cycle ∧ (e.seqOf s).gapEnd = d.cycle + 48 ∧ (e.seqOf s).gapCounts = gap
    let ended (e : Device) (f : Nat) (v : Bool) : Prop := resumed e false ∧ e.siteState s = siteRunning ∧
      (e.seqOf s).items = z.items ∧ (e.seqOf s).vectors = z.vectors ∧
      e.o lead 0x69 = (if f < 128 then setBit (d.o lead 0x69) (f % 8) v else d.o lead 0x69)
    (z.hold = .none → exec (.waitConditionMet s) st = .next st ∧ exec (.waitTimeout s) st = .next st) ∧
    (∀ since input neg edge n f met, z.hold = .wait since input neg edge n f →
      met = (if edge then decide (since < d.cycle) && d.condEdge (d.leadQuad s) input neg
        else d.condInput (d.leadQuad s) input == !neg) →
      (since ≤ d.cycle → met = true →
        ∃ t, exec (.waitConditionMet s) st = .next t ∧ t.pending = st.pending ∧ ended t.dev f false) ∧
      (met = false → exec (.waitConditionMet s) st = .next st) ∧
      (n ≠ 0 → since + n ≤ d.cycle → ∃ t, exec (.waitTimeout s) st = .next t ∧ t.pending = st.pending ∧ ended t.dev f true) ∧
      (n = 0 ∨ d.cycle < since + n → exec (.waitTimeout s) st = .next st)) ∧
    (z.flights = [] → ∀ seen, exec (.compareResult s seen) st = .next st) ∧
    (∀ (f : Flight) (rest : List Flight) (seen : List Seen), z.flights = f :: rest →
      (d.cycle < f.due → exec (.compareResult s seen) st = .next st) ∧
      (f.due ≤ d.cycle → f.inMatch = false → z.cond = none → d.failMask f.strobes seen = 0 →
        ∃ t, exec (.compareResult s seen) st = .next t ∧ t.pending = st.pending ∧ (t.dev.seqOf s).flights = rest ∧
          (t.dev.seqOf s).resultWindow = max z.resultWindow f.window ∧
          (t.dev.seqOf s).windowFail = (!(decide (z.resultWindow < f.window)) && z.windowFail) ∧
          t.dev.siteFails s = d.siteFails s ∧ t.dev.o (siteIx s) 0x3A = d.o (siteIx s) 0x3A ∧
          (z.logWait = [] → t.dev.sites.flow = d.sites.flow ∧ t.dev.mem = d.mem)) ∧
      (f.due ≤ d.cycle → f.inMatch = false → z.cond = none → d.failMask f.strobes seen ≠ 0 → d.act (siteIx s) 0x1E = 0 →
        d.failQueue s = noQueue → ∀ chans, chans = maskChans (d.failMask f.strobes seen) →
        ∃ t, exec (.compareResult s seen) st = .next t ∧ t.pending = st.pending ∧
          t.dev.siteFails s = min (d.siteFails s + chans.length) (2 ^ 48 - 1) ∧ (t.dev.seqOf s).windowFail = true ∧
          (t.dev.seqOf s).flights = rest ∧
          (∀ n < 512, t.dev.o (clusterIx (n / 16)) (0x10 + n % 16) = (if n ∈ chans then
            min (d.o (clusterIx (n / 16)) (0x10 + n % 16) + 1) (2 ^ 48 - 1) else d.o (clusterIx (n / 16)) (0x10 + n % 16))) ∧
          (fld (d.o (siteIx s) 0x3A) 26 1 ≠ 0 → t.dev.o (siteIx s) 0x3A = d.o (siteIx s) 0x3A) ∧
          (fld (d.o (siteIx s) 0x3A) 26 1 = 0 → fld (t.dev.o (siteIx s) 0x3A) 26 1 = 1 ∧
            fld (t.dev.o (siteIx s) 0x3A) 2 2 = chans.headD 0 ∧ fld (t.dev.o (siteIx s) 0x3A) 8 8 = f.number % 2 ^ 64)) ∧
      (∀ k, z.cond = some k → f.due ≤ d.cycle → d.failMask f.strobes seen = 0 →
        (k.isMatch = false → k.splice = false → k.upTo = f.number + 1 →
          ∀ v, v = ((if f.inMatch then z.windowFail && z.resultWindow == k.window
            else !(decide (z.resultWindow < f.window)) && z.windowFail && max z.resultWindow f.window == k.window) != k.neg) →
          ∃ t, exec (.compareResult s seen) st = .next t ∧ t.pending = st.pending ∧ (t.dev.seqOf s).cond = none ∧
            resumed t.dev true ∧ (t.dev.seqOf s).next = (if v then k.target else k.blk + 1)) ∧
        (f.inMatch = true → f.ends = true → k.isMatch = true → k.splice = false → k.owns = false → k.upTo ≤ f.number →
          k.failedIter = false → ∀ p rest', z.items = .vectors p :: rest' →
          ∃ t, exec (.compareResult s seen) st = .next t ∧ t.pending = st.pending ∧ (t.dev.seqOf s).cond = none ∧
            resumed t.dev true ∧ t.dev.siteFails s = d.siteFails s ∧
            t.dev.o lead 0x69 = (if k.flag < 128 then setBit (d.o lead 0x69) (k.flag % 8) true else d.o lead 0x69) ∧
            (k.counter < 128 → counterOf (t.dev.seqCounters s) (k.counter % 16) = (k.judged + 1) % 2 ^ 32))))

/-- A hold that is no stall does not resume. A STREAM or REDIRECT stall ends when every quad of the site is refilled, an ISSUE
stall when issue has caught up; the hold time is counted and play can go on 48 ns later, or at once after ISSUE. Without an
armed jump, outside preload and play or without its edge no request is registered; a second one is counted as ignored; the
first is registered and shows. A registered jump takes place at a jump point that committed 48 ns or more after it, or in a
WAIT's hold: stacks empty, jump disarmed, the run-ahead squashed, the site RUNNING, issue at the target, one jump counted. In
SPLICE mode the jump point is chosen from the registration cycle on, once the run-ahead holds it (log 108: which point SPLICE
picks is the model's choice): what lies behind is squashed, a conditional with it, and the target issues from the
registration on; at that point's boundary the jump is counted. A request of the preload counts from the first cycle of play,
and one in WAIT mode as soon as it is registered (log 19: the model's choice). -/
def Obligations.StallsResumeAndEventsJump : Prop :=
  ∀ (st : State) (s : Site), st.running →
    let d := st.dev
    let z := d.seqOf s
    let lead := quadIx (d.leadQuad s)
    let jumped (e : Device) (j : Jump) : Prop := (e.seqOf s).loops = [] ∧ (e.seqOf s).calls = [] ∧ (e.seqOf s).jump = none ∧
      (e.seqOf s).request = none ∧ (e.seqOf s).items = [] ∧ (e.seqOf s).next = j.target ∧ (e.seqOf s).hold = .none ∧
      (e.seqOf s).issuing = true ∧ (e.seqOf s).cond = none ∧ (e.seqOf s).captures = [] ∧ e.siteState s = siteRunning ∧
      e.o lead 0x6D = min (d.o lead 0x6D + 1) (2 ^ 32 - 1) ∧ (e.seqOf s).vectors = z.vectors ∧ (e.seqOf s).flights = z.flights
    (z.hold = .none → exec (.stallResume s) st = .next st) ∧
    (∀ since cause, z.hold = .stall since cause →
      ∀ back, back = (if cause = 2 then d.issueCaughtUp s else (d.siteQuads s).all (d.refilled s)) →
      (back = false → exec (.stallResume s) st = .next st) ∧
      (back = true → ∃ t, exec (.stallResume s) st = .next t ∧ t.pending = st.pending ∧ (t.dev.seqOf s).hold = .none ∧
        (t.dev.seqOf s).arm = none ∧ (t.dev.seqOf s).gapEnd = (if cause = 2 then d.cycle + 1 else d.cycle + 48) ∧
        (t.dev.seqOf s).phase = z.phase ∧ (t.dev.seqOf s).vectors = z.vectors ∧
        t.dev.o (siteIx s) 0x11 = (d.o (siteIx s) 0x11 + ((if cause = 2 then d.cycle + 1 else d.cycle + 48) - since)) % 2 ^ 64)) ∧
    (z.jump = none → z.request = none → exec (.eventJumpRequest s) st = .next st) ∧
    (∀ j, (z.request.map Prod.snd).or z.jump = some j →
      (z.phase ≠ .play ∧ z.phase ≠ .preload ∨ d.condEdge (d.leadQuad s) j.input j.neg = false → exec (.eventJumpRequest s) st = .next st) ∧
      (z.phase = .play ∨ z.phase = .preload → d.condEdge (d.leadQuad s) j.input j.neg = true → z.request ≠ none →
        ∃ t, exec (.eventJumpRequest s) st = .next t ∧ t.pending = st.pending ∧ d.OnlyKeys t.dev [okey lead 0x6E] ∧
          t.dev.o lead 0x6E = min (d.o lead 0x6E + 1) (2 ^ 32 - 1)) ∧
      (z.phase = .play ∨ z.phase = .preload → d.condEdge (d.leadQuad s) j.input j.neg = true → z.request = none →
        let e := d.setSeq s { z with request := some (if z.phase = .play then d.nextBoundaryCycle s else 0, j) }
        (j.splice = false ∨ z.phase = .preload ∨ d.cycle < d.nextBoundaryCycle s → chooseJump s e = e) ∧
        ∃ t, exec (.eventJumpRequest s) st = .next t ∧ t.pending = st.pending ∧ t.dev.seqOf s = (chooseJump s e).seqOf s ∧
          t.dev.o lead 0x6C = 2)) ∧
    (∀ r j kept gone snap, z.request = some (r, j) → j.splice = true → z.phase = .play → z.hold = .none ∨ z.hold = .result →
      jumpChosen z = false → r ≤ d.cycle → d.sectionsIn s = true → let period := d.quadPeriod (d.leadQuad s)
      d.cutAtJump s (r + 48) (boundaryFrom z.boundaryPs (1000 * z.resumeAt) period) period z.items = some (kept, gone, snap) →
      let e := chooseJump s d
      (e.seqOf s).next = j.target ∧ (e.seqOf s).loops = [] ∧ (e.seqOf s).calls = [] ∧ (e.seqOf s).issueFree = r ∧
      (e.seqOf s).issuing = true ∧ (e.seqOf s).request = z.request ∧ (e.seqOf s).vectors = z.vectors ∧ (e.seqOf s).cond = none ∧
      ∃ b, (e.seqOf s).items = kept.map Item.confirmed ++ [.effect b .jumpMark false d.cycle]) ∧
    (z.request = none ∨ z.phase ≠ .play → exec (.eventJump s) st = .next st) ∧
    (z.request ≠ none → z.phase = .play → jumpAtFront z = true → ∃ t, exec (.eventJump s) st = .next t ∧ t.pending = st.pending ∧
      (t.dev.seqOf s).request = none ∧ (t.dev.seqOf s).items = z.items.drop 1 ∧ (t.dev.seqOf s).next = z.next ∧
      t.dev.siteState s = siteRunning ∧ t.dev.o lead 0x6D = min (d.o lead 0x6D + 1) (2 ^ 32 - 1)) ∧
    (∀ r j, z.request = some (r, j) → z.phase = .play → jumpAtFront z = false →
      (∀ since input neg edge n f, z.hold = .wait since input neg edge n f →
        (d.cycle < r → exec (.eventJump s) st = .next st) ∧
        (r ≤ d.cycle → ∃ t, exec (.eventJump s) st = .next t ∧ t.pending = st.pending ∧ jumped t.dev j)) ∧
      (z.hold = .none → z.lastJump = none → exec (.eventJump s) st = .next st) ∧
      (z.hold = .none → ∀ c, z.lastJump = some c →
        (c < r + 48 → exec (.eventJump s) st = .next st) ∧
        (r + 48 ≤ c → ∃ t, exec (.eventJump s) st = .next t ∧ t.pending = st.pending ∧ jumped t.dev j)))

/-- Preload that is not complete goes on. Complete with no allowance, or after a late one, play begins: the first vector commits
48 ns after the start cycle; a late start counts as a stall before the first vector (log 39), and a request moves to the
first play cycle (log 19); within the allowance it waits. When the allowance runs out, a complete preload starts; else STALL
waits on and the other policies end with UNDERRUN. The capture of a body that has been fetched is copied then, and the LOOPs
waiting for it are checked (log 28): one that is not closed by its ENDL stops issue. A pattern that has stopped ends 16 ns
after its last boundary with every result in: reason and code show, the streams are dropped with 0x7C at 0 (log 27), its
lines and signals are gone, and its RUN-PATTERN step completes with its result. The logs named are the model's choices. -/
def Obligations.PatternsStartAndEnd : Prop :=
  ∀ (st : State) (s : Site), st.running →
    let d := st.dev
    let z := d.seqOf s
    let played (e : Device) : Prop := (e.seqOf s).phase = .play ∧ (e.seqOf s).preloaded = true ∧
      (e.seqOf s).boundaryPs = 1000 * (d.cycle + 48) ∧ (e.seqOf s).items = z.items ∧ (e.seqOf s).vectors = z.vectors ∧
      (e.seqOf s).request = (z.request.map fun r => (d.cycle + 48, r.2))
    (z.phase ≠ .preload ∨ z.preloaded = true ∨ d.preloadDone s = false → exec (.preloadComplete s) st = .next st) ∧
    (z.phase = .preload → z.preloaded = false → d.preloadDone s = true →
      (z.allowance = 0 ∨ z.expired = true → ∃ t, exec (.preloadComplete s) st = .next t ∧ t.pending = st.pending ∧ played t.dev ∧
        (z.allowance ≠ 0 → (t.dev.seqOf s).stalls = z.stalls + 1 ∧ t.dev.o (siteIx s) 0x10 = min (d.o (siteIx s) 0x10 + 1) (2 ^ 32 - 1) ∧ t.dev.o (siteIx s) 0x12 = 0 ∧
          t.dev.o (siteIx s) 0x11 =
            (d.o (siteIx s) 0x11 + (d.cycle - ((d.flowOf s).beginCycle + z.allowance))) % 2 ^ 64)) ∧
      (z.allowance ≠ 0 → z.expired = false → ∃ t, exec (.preloadComplete s) st = .next t ∧ t.pending = st.pending ∧
        t.dev = { d with sites := { d.sites with seq := t.dev.sites.seq } } ∧ t.dev.seqOf s = { z with preloaded := true })) ∧
    (z.phase ≠ .preload ∨ z.allowance = 0 ∨ z.expired = true ∨ d.cycle < (d.flowOf s).beginCycle + z.allowance →
      exec (.preloadAllowanceExpiry s) st = .next st) ∧
    (z.phase = .preload → z.allowance ≠ 0 → z.expired = false → (d.flowOf s).beginCycle + z.allowance ≤ d.cycle →
      (z.preloaded = true → ∃ t, exec (.preloadAllowanceExpiry s) st = .next t ∧ t.pending = st.pending ∧ played t.dev) ∧
      (z.preloaded = false → d.stallPolicy s = 0 →
        ∃ t, exec (.preloadAllowanceExpiry s) st = .next t ∧ t.pending = st.pending ∧ t.dev.seqOf s = { z with expired := true }) ∧
      (z.preloaded = false → d.stallPolicy s ≠ 0 →
        ∃ t, exec (.preloadAllowanceExpiry s) st = .next t ∧ t.pending = st.pending ∧ (t.dev.seqOf s).phase = .ending ∧
          (t.dev.seqOf s).reason = 3)) ∧
    ((z.captures.find? fun k => !k.copied && d.bodyFetched s k) = none → exec (.captureCopyDone s) st = .next st) ∧
    (∀ k, (z.captures.find? fun k => !k.copied && d.bodyFetched s k) = some k →
      let inside (l : LoopEntry) : Bool := l.check && decide (k.first ≤ l.first) && decide (l.exit ≤ k.last)
      ((∀ l ∈ z.loops, inside l = true → d.endlMatches s l.first l.exit = true) →
        ∃ t, exec (.captureCopyDone s) st = .next t ∧ t.pending = st.pending ∧
          t.dev = { d with sites := { d.sites with seq := t.dev.sites.seq } } ∧ t.dev.seqOf s = { z with
            captures := z.captures.map fun y => if y = k then { k with copied := true } else y
            loops := z.loops.map fun l => if inside l then { l with check := false } else l }) ∧
      (∀ l, ((z.loops.filter inside).reverse.find? fun l => !(d.endlMatches s l.first l.exit)) = some l →
        ∃ t, exec (.captureCopyDone s) st = .next t ∧ t.pending = st.pending ∧ (t.dev.seqOf s).issuing = false ∧
          ∃ l' sp r, (t.dev.seqOf s).items = l' ++ [.effect (l.first - 1) (.error haltNest 0 noQuad) sp r])) ∧
    (z.phase ≠ .ending ∨ z.flights ≠ [] ∨ 1000 * d.cycle < z.haltPs + 16000 → exec (.patternEnd s) st = .next st) ∧
    (z.phase = .ending → z.flights = [] → z.haltPs + 16000 ≤ 1000 * d.cycle →
      ∃ t, exec (.patternEnd s) st = .next t ∧ t.pending = st.pending ∧ (t.dev.seqOf s).phase = .off ∧
        (t.dev.seqOf s).captures = [] ∧
        (∀ q ∈ d.siteQuads s, t.dev.streamOf q = Stream.init ∧ t.dev.o (quadIx q) 0x61 = z.reason ∧
          t.dev.o (quadIx q) 0x62 = z.code ∧ t.dev.o (quadIx q) 0x7C = 0) ∧
        (d.runsStep s opRunPattern = true → (t.dev.flowOf s).phase = .complete ∧ (t.dev.flowOf s).result = d.patternResult s ∧
          (t.dev.flowOf s).end_ = d.ringNs) ∧
        (∀ x ∈ t.dev.sites.signals, x.site ≠ s) ∧ Cells.read 0 s.val t.dev.event.lineSet = 0 ∧
        ∀ g ∈ t.dev.mem.grants, g.owner = s → g.released = true)

/-- A read arrives only where a slot has issued it: of the quad's resident image first, then of its stream; it counts its bytes,
and marks a poisoned piece; else it changes nothing. A section of which the bytes are there (log 21: what makes it present
and whole is the model's choice) is decoded through the quad's dictionary; an encoding error stops issue with its cause and
poison with POISONED. This is stated with no SPLICE event jump waiting. A parity error makes the quad RELOADING, counts it,
and ends its site's pattern with the quad named; a quad that does not read its store is left alone. A reload leaves the
image's words, but for those that come out wrong, in the store with their CRC (log 112: its byte order is the model's
choice); a right one gives the quad its state back; after a first mismatch it goes on, after a second the quad is fenced,
counted out and reported. -/
def Obligations.StreamsAndControlStore : Prop :=
  ∀ (st : State) (q : Quad), st.running →
    let d := st.dev
    let x := d.streamOf q
    (d.siteOf q = none → (∀ poisoned, exec (.streamRead q poisoned) st = .next st) ∧ exec (.sectionDecode q) st = .next st) ∧
    (∀ s, d.siteOf q = some s → (∀ r j, (d.seqOf s).request = some (r, j) → j.splice = false) →
      (∀ (poisoned : Bool) (p : Nat), p = (if x.resGot < x.resLen then x.resOff + x.resGot else x.fetched) →
        ((∀ rt, (p, rt) ∉ x.asked) → exec (.streamRead q poisoned) st = .next st) ∧
        ∀ rt, (x.asked.find? fun a => a.1 == p) = some (p, rt) →
          let n := if x.resGot < x.resLen then 64 else x.pieceEnd p - p
          ∃ t, exec (.streamRead q poisoned) st = .next t ∧ t.pending = st.pending ∧
            (t.dev.streamOf q).asked = x.asked.erase (p, rt) ∧
            (t.dev.streamOf q).resGot = (if x.resGot < x.resLen then x.resGot + 64 else x.resGot) ∧
            (t.dev.streamOf q).fetched = (if x.resGot < x.resLen then x.fetched else x.skip (p + n)) ∧
            t.dev.o (quadIx q) 0x79 = (d.o (quadIx q) 0x79 + n) % 2 ^ 64 ∧
            (t.dev.streamOf q).poison =
              (if poisoned || d.streamPoison rt (quadAddr q (x.base + p) / 64) then p / 64 :: x.poison else x.poison) ∧
            (t.dev.streamOf q).pieces = addPiece p (d.streamRead rt (quadAddr q (x.base + p)) n) x.pieces) ∧
      ((d.seqOf s).phase = .off ∨ (d.seqOf s).phase = .ending → exec (.sectionDecode q) st = .next st) ∧
      ((d.seqOf s).phase = .preload ∨ (d.seqOf s).phase = .play →
        (sectionAt x.decoded.length (d.seqOf s).items = none → exec (.sectionDecode q) st = .next st) ∧
        (∀ p, sectionAt x.decoded.length (d.seqOf s).items = some p →
          let start := d.sectionStart s q p.blk
          let len := sectionLen (peonyHeader (d.streamBytes q start 32))
          let bytes := d.streamBytes q start len
          let err := peonyError bytes p.sectionCount (x.length - start)
          let need := if err.isSome then min (start + 32) x.length else start + len
          (d.sectionPresent s q p need = false → exec (.sectionDecode q) st = .next st) ∧
          (d.sectionPresent s q p need = true →
            (x.poisoned start (need - start) = true → ∃ t, exec (.sectionDecode q) st = .next t ∧ t.pending = st.pending ∧
              (t.dev.seqOf s).issuing = false ∧ ∃ l r, (t.dev.seqOf s).items = l ++ [.effect p.blk (.error 12 0 q) p.spec r]) ∧
            (x.poisoned start (need - start) = false → ∀ c, err = some c →
              ∃ t, exec (.sectionDecode q) st = .next t ∧ t.pending = st.pending ∧ (t.dev.seqOf s).issuing = false ∧
              ∃ l r, (t.dev.seqOf s).items = l ++ [.effect p.blk (.error 11 c q) p.spec r]) ∧
            (x.poisoned start (need - start) = false → err = none →
              ∃ t, exec (.sectionDecode q) st = .next t ∧ t.pending = st.pending ∧
              (t.dev.streamOf q).decoded = x.decoded ++ [{
                blk := p.blk, vecs := peonyVectors bytes (d.dictEntry q), start := start + 32, len := len - 32, whole := d.sectionHeld s q p
                early := p.early }] ∧
              (t.dev.seqOf s).items = (d.seqOf s).items))))) ∧
    (d.storeRead q = false → exec (.controlStoreParityError q) st = .next st ∧ ∀ bad, exec (.backgroundSweep q bad) st = .next st) ∧
    (exec (.backgroundSweep q false) st = .next st) ∧
    (d.storeRead q = true →
      (d.playingSite q = none → ∀ i ∈ ([.controlStoreParityError q, .backgroundSweep q true] : List Instr),
        ∃ t, exec i st = .next t ∧ t.pending = st.pending ∧ d.OnlyKeys t.dev [okey (quadIx q) 0x60, okey (quadIx q) 0x71] ∧
          t.dev.o (quadIx q) 0x60 = 7 ∧ t.dev.o (quadIx q) 0x71 = min (d.o (quadIx q) 0x71 + 1) (2 ^ 32 - 1)) ∧
      (∀ s, d.playingSite q = some s → exec (.backgroundSweep q true) st = .next st ∧
        ((d.seqOf s).phase = .play → ∃ t, exec (.controlStoreParityError q) st = .next t ∧ t.pending = st.pending ∧
          t.dev.o (quadIx q) 0x60 = 7 ∧ t.dev.o (quadIx (d.leadQuad s)) 0x75 = q ∧ (t.dev.seqOf s).phase = .ending ∧
          (t.dev.seqOf s).reason = 13))) ∧
    (∀ (faults : List LoadFault),
      (d.o (quadIx q) 0x60 ≠ 7 → exec (.controlStoreReloadDone q faults) st = .next st) ∧
      (d.o (quadIx q) 0x60 = 7 →
        let again := bit d.boot.reloaded q
        let words := (d.boot.image.map fun im => im.microcode).getD (Cells.read [] q.val d.boot.stores)
        let loaded := (storeLoad faults again q words (storeCrc words)).1
        let crc := (storeLoad faults again q words (storeCrc words)).2
        crc = storeCrc loaded ∧ ((∀ f ∈ faults, f.quad = q → f.second ≠ again) → loaded = words) ∧
        ∃ t, exec (.controlStoreReloadDone q faults) st = .next t ∧ t.pending = st.pending ∧
        t.dev.o (quadIx q) 0x70 = (d.o (quadIx q) 0x70 + 1) % 2 ^ 16 ∧ t.dev.o (quadIx q) 0x6F = crc ∧
        Cells.read [] q.val t.dev.boot.stores = loaded ∧
        (crc = d.o 0x1260 0x05 → t.dev.o (quadIx q) 0x60 = d.memberState q ∧ t.dev.event = d.event) ∧
        (crc ≠ d.o 0x1260 0x05 → again = false → t.dev.o (quadIx q) 0x60 = 7 ∧
          bit t.dev.boot.reloaded q = true ∧ t.dev.event = d.event) ∧
        (crc ≠ d.o 0x1260 0x05 → again = true → t.dev.o (quadIx q) 0x60 = 6 ∧
          t.dev.o 0x1260 0x06 = d.o 0x1260 0x06 - 1 ∧ bit (t.dev.o 0x1260 (7 + q / 64)) (q % 64) = true ∧
          ∃ y, t.dev.event.raised = d.event.raised ++ [y] ∧ y.src = 16)))

/-- With REFCLK absent or lost already, a loss changes nothing. Else the clock reads lost, no PLL is locked, every channel is at
DZ, EV024 is raised last, and every flow that had begun and not come to its END record ends with CLOCK-LOSS, its site
WAITING. A return after a loss begins the relock and changes nothing else; the first arrival after a start without REFCLK
makes the clock present, and the next frame on the configuration port begins where none runs. A tile relocks once, while the
clock returns; with the last tile the clock is present. -/
def Obligations.RefclkLostAndRelocked : Prop :=
  ∀ (st : State), st.running →
    let d := st.dev
    (d.refclk = .absent ∨ d.refclk = .lost → exec .refclkLoss st = .next st) ∧
    (d.refclk = .present ∨ d.refclk = .returning → ∃ t, exec .refclkLoss st = .next t ∧ t.pending = st.pending ∧
      t.dev.refclk = .lost ∧ t.dev.relock = 0xFF ∧ (∀ n < 512, t.dev.pinOf n = Pin.init) ∧
      (∃ l y, t.dev.event.raised = l ++ [y] ∧ y.src = 24 ∧ y.time = d.ringNs) ∧
      ∀ s < 128, (d.flowOf s).phase ≠ .idle → (d.flowOf s).phase ≠ .endCredit →
        (t.dev.flowOf s).ending = some 18 ∧ t.dev.siteState s = siteWaiting) ∧
    (d.refclk = .lost → ∃ t, exec .refclkReturn st = .next t ∧ t.pending = st.pending ∧ t.dev = { d with refclk := .returning }) ∧
    (d.refclk = .absent → d.o 0x1200 0x01 ≠ 1 → ∃ t, exec .refclkReturn st = .next t ∧ t.pending = st.pending ∧
      t.dev = { d with objs := t.dev.objs, refclk := .present, boot := t.dev.boot } ∧ d.sameBut t.dev [okey 0x1200 0x0A] ∧
      (d.boot.csp ≠ none → t.dev.boot = d.boot) ∧
      (d.boot.csp = none → d.o 0x1200 0x01 = 3 → d.boot.slotData = [] → t.dev.boot.csp = some (.bootRead 4096))) ∧
    (d.refclk = .present ∨ d.refclk = .returning ∨ (d.refclk = .absent ∧ d.o 0x1200 0x01 = 1) →
      exec .refclkReturn st = .next st) ∧
    (∀ (k : Tile),
      (d.refclk ≠ .returning ∨ bit d.relock k = false → exec (.pllRelock k) st = .next st) ∧
      (d.refclk = .returning → bit d.relock k = true → ∃ t, exec (.pllRelock k) st = .next t ∧ t.pending = st.pending ∧
        t.dev.relock = setBit d.relock k false ∧
        t.dev.refclk = (if setBit d.relock k false = 0 then .present else .returning) ∧ t.dev.pins = d.pins))

/-- A frame on a link that is down is nothing. One that is too short or too long counts as an FCS error and leaves with a wrong
FCS. One that is not processed, or of another EtherType, leaves as it came, and so does one of another version; a malformed
header is counted too. An examined frame with no datagrams leaves with its hop count raised by one, to 255 at most, and with
a right FCS exactly if it came with one; a wrong one is counted. One with datagrams passes them in their order (R33): each as
the one before left the block, while each but the last of a list carries MORE and nothing stopped; what leaves is what they
became, between the raised header and the rest. Bytes that follow MORE and are no whole datagram count as one malformed, and
leave as they came, as does all that follows a datagram with a reserved bit or too few data (R34). A bad FCS discards the
writes held. At a frame's end nothing is held any more, and a cyclic frame's writes are acknowledged if none was held or they
came within 2 us; a held plain write is then in its object. -/
def Obligations.RingFramesPass : Prop :=
  ∀ (st : State), st.running →
    let d := st.dev
    let sends (e : Device) (port : Link) (bs : List Byte) : Prop := e.ring.txFrame = bs ∧ e.ring.txLink = some port ∧
      e = { d with objs := e.objs, ring := { d.ring with txFrame := e.ring.txFrame, txLink := e.ring.txLink } }
    (∀ (l : Link) (bs : List Byte),
      (framePath (d.o 0x1100 0x0A) l = none → exec (.lemileFrame l bs) st = .next st) ∧
      (∀ processed port, framePath (d.o 0x1100 0x0A) l = some (processed, port) →
        (bs.length < 64 ∨ 9216 < bs.length → ∃ t, exec (.lemileFrame l bs) st = .next t ∧ t.pending = st.pending ∧
          sends t.dev port (withFcs (frameBody bs) false) ∧ d.sameBut t.dev [okey 0x1100 0x10] ∧
          t.dev.o 0x1100 0x10 = min (d.o 0x1100 0x10 + 1) (2 ^ 32 - 1)) ∧
        (64 ≤ bs.length → bs.length ≤ 9216 →
          (processed = false ∨ ofBE ((bs.drop 12).take 2) ≠ d.o 0x1100 0x01 →
            ∃ t, exec (.lemileFrame l bs) st = .next t ∧ t.pending = st.pending ∧ sends t.dev port bs ∧ t.dev.objs = d.objs) ∧
          (processed = true → ofBE ((bs.drop 12).take 2) = d.o 0x1100 0x01 → ofBE ((bs.drop 12).take 2) ≠ 0x8100 →
            ∀ version n, version = (bs.getD 16 0).toNat → n = ofLE ((bs.drop 14).take 2) →
            (16 ≤ version ∨ 2 ^ 14 ≤ n ∨ bs.length < 22 + n → ∃ t, exec (.lemileFrame l bs) st = .next t ∧
              t.pending = st.pending ∧ sends t.dev port bs ∧ d.sameBut t.dev [okey 0x1100 0x11] ∧
              t.dev.o 0x1100 0x11 = min (d.o 0x1100 0x11 + 1) (2 ^ 32 - 1)) ∧
            (version < 16 → version ≠ 1 → n < 2 ^ 14 → 22 + n ≤ bs.length → ∃ t, exec (.lemileFrame l bs) st = .next t ∧
              t.pending = st.pending ∧ sends t.dev port bs ∧ t.dev.objs = d.objs) ∧
            (version = 1 → n = 0 → d.ring.held = [] → ∀ body, body = frameBody bs →
              ∃ t, exec (.lemileFrame l bs) st = .next t ∧ t.pending = st.pending ∧
                t.dev.ring.txLink = some port ∧ t.dev.ring.txFrame = withFcs (body.take 17 ++
                  [BitVec.ofNat 8 (min ((body.getD 17 0).toNat + 1) 255)] ++ body.drop 18) (frameFcs bs == crc32 body) ∧
                t.dev = { d with objs := t.dev.objs, ring := t.dev.ring } ∧ d.sameBut t.dev [okey 0x1100 0x1E, okey 0x1100 0x10] ∧
                t.dev.o 0x1100 0x1E = (body.getD 17 0).toNat ∧
                t.dev.o 0x1100 0x10 = (if frameFcs bs = crc32 body then d.o 0x1100 0x10
                  else min (d.o 0x1100 0x10 + 1) (2 ^ 32 - 1))) ∧
            (version = 1 → n ≠ 0 → n < 2 ^ 14 → 22 + n ≤ bs.length → d.ring.held = [] →
              ∀ body hop good, body = frameBody bs → hop = (body.getD 17 0).toNat → good = (frameFcs bs == crc32 body) →
              ∀ f e, f = (finishFrame d).w 0x1100 0x1E hop → e = { f with ring := { f.ring with
                hop := hop, link := l, cyclic := (body.getD 18 0).toNat == 0x30, position := 0, stopped := false } } →
              ∀ (xs : List Datagram) (tail : List Byte), (body.drop 18).take n = xs.flatMap dgBytes ++ tail →
              (∀ x ∈ xs, x.data.length = dgLength x) →
              ∀ pass : Device × List Byte → Datagram → Device × List Byte,
              pass = (fun p x => (datagramIn l x frameResidence p.1,
                p.2 ++ (datagramIn l x frameResidence p.1).lastBytes (dgBytes x))) →
              (∀ ys x y zs, xs = ys ++ x :: y :: zs → dgMore x = true ∧
                ((ys ++ [x]).foldl pass (e, [])).1.ring.stopped = false) →
              ∀ r, r = xs.foldl pass (e, []) →
              let goesOn : Prop := r.1.ring.stopped = false ∧ ∀ x, xs.getLast? = some x → dgMore x = true
              let ends (c : Device) : Prop := ∃ t, exec (.lemileFrame l bs) st = .next t ∧ t.pending = st.pending ∧
                t.dev = frameOut (some port) (withFcs (body.take 17 ++ [BitVec.ofNat 8 (min (hop + 1) 255)] ++ (r.2 ++ tail) ++
                  body.drop (18 + n)) good) (fcsChecked good c) ∧ (good = false → t.dev.ring.held = [])
              (tail = [] ∨ ¬goesOn → ends r.1) ∧
              (tail ≠ [] → goesOn → tail.length < (dgParse tail).2 →
                ends (countForwarded (countMalformed (r.1.addWrap 0x1100 0x18 8 1))))))))) ∧
    (∀ (l : Link) (x : Datagram) (residence : Nat), d.ring.stopped = false →
      dgReservedOk x = false ∨ dgWhole x = false →
      let e := datagramIn l x residence d
      e = { d with objs := e.objs, ring := e.ring } ∧ d.passedOn e x x.data true ∧ e.ring.stopped = dgMore x ∧
      e.ring.held = d.ring.held ∧
      ∀ y, dgMore x = true → (datagramIn l y residence e).ring.txDatagram = some y ∧
        (datagramIn l y residence e).objs = e.objs) ∧
    (d.ring.held = [] → ∃ t, exec .frameWritesApply st = .next t ∧ t.pending = st.pending ∧
      t.dev = { d with ring := { d.ring with
        verdict := none, cyclic := false, stopped := false, position := 0,
        prevCyclic := (if d.ring.cyclic = true ∧ d.ring.verdict ≠ some false then .met else d.ring.prevCyclic) } }) ∧
    (∀ (s : Site) (v : Nat), d.ring.held = [.obj (siteIx s) 0x09 v] → d.accepts .ring (siteIx s) 0x09 v false →
      ∃ t, exec .frameWritesApply st = .next t ∧ t.pending = st.pending ∧ t.dev.ring.held = [] ∧
        t.dev.o (siteIx s) 0x09 = v ∧ d.sameBut t.dev [okey (siteIx s) 0x09] ∧ t.dev.ring.position = 0 ∧
        (d.ring.cyclic = true → d.ring.verdict ≠ some false →
          t.dev.ring.prevCyclic = (if d.cycle ≤ d.ring.frameEnd + 2000 then .met else .missed)))

/-- A datagram that this device takes: DRD returns the object's value, or zeros after a violation, which is counted, and marks
the working counter either way. DWR of the object's size is held, and changes no object yet; of another size it is malformed;
a violation of kinds 0 to 2 is counted and holds nothing; the zeros for data that is not there are log entry 81. A bad target
is malformed. DRR of one defined object returns its value, of an index that is not defined zeros after one violation, and
with its range reversed it is malformed. DRW of one object holds its write. Which kinds count as passes of a datagram is log
entry 80, and the frame that a datagram command belongs to is log entry 82. -/
def Obligations.DatagramsReadAndWrite : Prop :=
  ∀ (st : State) (x : Datagram), st.running →
    let d := st.dev
    let e := d.frameBefore d.ring.link false
    let c := e.addWrap 0x1100 0x18 8 1
    let ix := dgTarget x 0 16
    let sub := dgTarget x 16 8
    let quiet (t : Device) (ks : List Nat) : Prop := t = { e with objs := t.objs, ring := t.ring } ∧
      e.sameBut t ([0x11, 0x13, 0x14, 0x18].map (okey 0x1100) ++ ks)
    let bad (i : Instr) (y : Datagram) : Prop := ∃ t, exec i st = .next t ∧ t.pending = st.pending ∧ quiet t.dev [] ∧
      e.passedOn t.dev y (dgData x) true ∧ t.dev.ring.held = e.ring.held
    let log : List Nat := [okey 0x4000 0x01, okey 0x4000 0x02]
    (∀ y, y = { x with typ := 0x01 } → e.takesDatagram y →
      (dgTarget x 24 40 ≠ 0 → bad (.drd x) y) ∧
      (dgTarget x 24 40 = 0 → c.readKind .ring ix sub = none → ∃ t, exec (.drd x) st = .next t ∧ t.pending = st.pending ∧
        quiet t.dev [] ∧ e.actedOn t.dev y (returned x (leBytes (objSize ix sub) (c.readValue .ring ix sub))) 1) ∧
      (∀ k, dgTarget x 24 40 = 0 → c.readKind .ring ix sub = some k → ∃ t, exec (.drd x) st = .next t ∧
        t.pending = st.pending ∧ quiet t.dev log ∧ e.violated t.dev .ring ix sub k ∧
        e.actedOn t.dev y (returned x (List.replicate (objSize ix sub) 0)) 1)) ∧
    (∀ y, y = { x with typ := 0x02 } → e.takesDatagram y →
      (dgTarget x 24 40 ≠ 0 → bad (.dwr x) y) ∧
      (dgTarget x 24 40 = 0 → c.accessKind .ring true ix sub = none → dgLength x ≠ objSize ix sub → bad (.dwr x) y) ∧
      (dgTarget x 24 40 = 0 → c.accessKind .ring true ix sub = none → dgLength x = objSize ix sub →
        ∃ t, exec (.dwr x) st = .next t ∧ t.pending = st.pending ∧ quiet t.dev [] ∧ e.actedOn t.dev y (dgData x) 1 ∧
          t.dev.ring.held = e.ring.held ++ [.obj ix sub (ofLE (dgData x))]) ∧
      (∀ k, dgTarget x 24 40 = 0 → c.accessKind .ring true ix sub = some k → ∃ t, exec (.dwr x) st = .next t ∧
        t.pending = st.pending ∧ quiet t.dev log ∧ e.violated t.dev .ring ix sub k ∧ e.actedOn t.dev y (dgData x) 1 ∧
        t.dev.ring.held = e.ring.held)) ∧
    (∀ y, y = { x with typ := 0x03 } → e.takesDatagram y → ∀ last, last = dgTarget x 24 8 →
      (dgTarget x 32 32 ≠ 0 ∨ last < sub → bad (.drr x) y) ∧
      (dgTarget x 32 32 = 0 → sub ≤ last → indexDefined ix = false → ∃ t, exec (.drr x) st = .next t ∧
        t.pending = st.pending ∧ quiet t.dev log ∧ e.violated t.dev .ring ix sub 0 ∧
        e.actedOn t.dev y (returned x (List.replicate (dgLength x) 0)) 1) ∧
      (dgTarget x 32 32 = 0 → last = sub → indexDefined ix = true → objKind ix sub ≠ .undefined →
        c.readKind .ring ix sub = none → ∃ t, exec (.drr x) st = .next t ∧ t.pending = st.pending ∧ quiet t.dev [] ∧
          e.actedOn t.dev y (returned x (leBytes (objSize ix sub) (c.readValue .ring ix sub))) 1)) ∧
    (∀ y, y = { x with typ := 0x04 } → e.takesDatagram y → ∀ last, last = dgTarget x 24 8 →
      (dgTarget x 32 32 ≠ 0 ∨ last < sub → bad (.drw x) y) ∧
      (dgTarget x 32 32 = 0 → last = sub → indexDefined ix = true → objKind ix sub ≠ .undefined →
        c.accessKind .ring true ix sub = none → objSize ix sub ≤ dgLength x → objSize ix sub ≠ 0 →
        ∃ t, exec (.drw x) st = .next t ∧ t.pending = st.pending ∧ quiet t.dev [] ∧ e.actedOn t.dev y (dgData x) 1 ∧
          t.dev.ring.held = e.ring.held ++ [.obj ix sub (ofLE ((dgData x).take (objSize ix sub)))]))

/-- A bulk write with a target in memory is held for the ingress buffer of its link, or dropped and counted where that is full;
below OPERATOR it is a violation; a bad target is malformed. One that nothing holds back leaves its buffer: into the write
queues, where reads find its bytes, or, where the SDRAM of a tile that it touches is no longer there, dropped whole (log
entry 97). The first queued one whose memory does not wait completes: its bytes stand in cluster SRAM and no other byte
changes, or all its bursts leave the write queues for SDRAM; the load position grows by them. A bulk read request makes the
status FETCHING, or READY for no bytes; the fetch brings the bytes, with the words of cluster SRAM whose parity has failed as
poisoned, and READY; a range whose memory is gone answers ERROR (log entry 97). BRD returns the part that the buffer covers,
marked where poisoned, and else zeros (log entry 81). The frame that a datagram belongs to is log entry 82. -/
def Obligations.BulkTransfersComplete : Prop :=
  ∀ (st : State), st.running →
    let d := st.dev
    (∀ (l : Link) (x y : Datagram) (tg : Option Target) (n : Nat), y = { x with typ := 0x10 } → tg = bulkTarget x.target.toNat →
      n = dgLength x → ∀ e, e = d.frameBefore l false → e.takesDatagram y →
      (tg = none → ∃ t, exec (.bwr l x) st = .next t ∧ t.pending = st.pending ∧ e.passedOn t.dev y (dgData x) true ∧
        t.dev.ring.held = e.ring.held) ∧
      (∀ g, tg = some g → n ≠ 0 → ¬(g.space = 1 ∧ g.unit = 0) → e.targetOk g n = true →
        (e.role .ring < 1 → ∃ t, exec (.bwr l x) st = .next t ∧ t.pending = st.pending ∧ e.actedOn t.dev y (dgData x) 1 ∧
          e.violated t.dev .ring 0 0x10 2 ∧ t.dev.ring.held = e.ring.held) ∧
        (1 ≤ e.role .ring → e.ingressBytes l + n ≤ 262144 → ∃ t, exec (.bwr l x) st = .next t ∧ t.pending = st.pending ∧
          e.actedOn t.dev y (dgData x) 1 ∧ t.dev.mem = e.mem ∧
          t.dev.ring.held = e.ring.held ++ [.bulk ⟨l, g.space, g.unit, g.addr, dgData x, false⟩]) ∧
        (1 ≤ e.role .ring → 262144 < e.ingressBytes l + n → ∃ t, exec (.bwr l x) st = .next t ∧ t.pending = st.pending ∧
          e.passedOn t.dev y (dgData x) false ∧ t.dev.ring.held = e.ring.held ∧
          t.dev.o 0x1100 0x12 = min (e.o 0x1100 0x12 + 1) (2 ^ 32 - 1)))) ∧
    (d.nextBulk = none → d.settleIngress = d) ∧
    (∀ b, d.nextBulk = some b → ∀ n e, n = d.ring.bulkTag + 1 → e = admitBulk b d →
      d.settleIngress = e.settleIngress ∧ e.ring.ingress = d.ring.ingress.erase b ∧ e.mem.sram = d.mem.sram ∧
      ((bulkTiles b).all d.tileTakes = false → e.mem = d.mem ∧ e.ring.queued = d.ring.queued ∧
        e.o 0x1100 0x12 = min (d.o 0x1100 0x12 + 1) (2 ^ 32 - 1)) ∧
      ((bulkTiles b).all d.tileTakes = true → (∃ l, e.ring.queued = l ++ [(n, b)] ∧ l.Sublist d.ring.queued) ∧
        (b.space = 0 → b.addr % 64 + b.data.length ≤ 64 → ∀ i < b.data.length,
          e.bestEffortByte (b.addr + i) = b.data.getD i 0))) ∧
    (∀ e, e = d.settleIngress →
      ((∀ p ∈ e.ring.queued, (bulkTiles p.2).any e.tileWaits = true) →
        exec .bulkWriteComplete st = .next { st with dev := e }) ∧
      (∀ n b, e.ring.queued.find? (fun p => (bulkTiles p.2).all fun t => !(e.tileWaits t)) = some (n, b) →
        (b.space = 2 → ∃ t, exec .bulkWriteComplete st = .next t ∧ t.pending = st.pending ∧
          t.dev.ring.queued = e.ring.queued.erase (n, b) ∧
          (∀ i < b.data.length, t.dev.sramByte (sramKey b.tiles b.addr + i) = b.data.getD i 0) ∧
          (∀ k, k < sramKey b.tiles b.addr ∨ sramKey b.tiles b.addr + b.data.length ≤ k → t.dev.sramByte k = e.sramByte k) ∧
          t.dev.mem.sdram = e.mem.sdram ∧ t.dev.o 0x1100 0x1D = (e.o 0x1100 0x1D + b.data.length) % 2 ^ 64) ∧
        (b.space ≠ 2 → (∃ j < 32, ∃ w ∈ (e.subOf j).writes, w.bulk = n) →
          ∃ t, exec .bulkWriteComplete st = .next t ∧ t.pending = st.pending ∧ t.dev.mem.sram = e.mem.sram ∧
            (n, b) ∉ t.dev.ring.queued ∧ (∀ j < 32, ∀ w ∈ (t.dev.subOf j).writes, w.bulk ≠ n) ∧
            (e.ring.queued = [(n, b)] →
              t.dev.o 0x1100 0x1D = (e.o 0x1100 0x1D + bulkCopies b * b.data.length) % 2 ^ 64) ∧
            (∀ j < 32, ∀ w, (e.subOf j).writes = [w] → w.bulk = n →
              (∀ k < 32, k ≠ j → ∀ v ∈ (e.subOf k).writes, v.burst ≠ w.burst) →
              ∀ i < 64, ∀ v, w.data[i]? = some (some v) → t.dev.sdramByte (64 * w.burst + i) = v)))) ∧
    (∀ (x y : Datagram) (g : Target) (n : Nat), y = { x with typ := 0x11 } → bulkTarget x.target.toNat = some g →
      n = ofLE (dgData x) → ∀ e, e = d.frameBefore d.ring.link false → e.takesDatagram y → g.space ≠ 1 → n ≤ 65536 →
      (n = 0 → ∃ t, exec (.brq x) st = .next t ∧ t.pending = st.pending ∧ e.actedOn t.dev y (dgData x) 1 ∧
        t.dev.o 0x1100 0x15 = 2) ∧
      (n ≠ 0 → e.targetOk g n = true → ∃ t, exec (.brq x) st = .next t ∧ t.pending = st.pending ∧
        e.actedOn t.dev y (dgData x) 1 ∧ t.dev.o 0x1100 0x15 = 1 ∧ t.dev.ring.readSpace = g.space ∧ t.dev.ring.readLen = n ∧
        t.dev.ring.readBase = (if g.space = 2 then sramKey g.unit g.addr else g.addr))) ∧
    (∀ (upset : List SramWord) (e : Device), e = upsetSram (upset.map Fin.val).dedup d →
      ∀ base n, base = d.ring.readBase → n = d.ring.readLen →
      (d.o 0x1100 0x15 ≠ 1 → exec (.bulkReadFetchDone upset) st = .next { st with dev := e }) ∧
      (d.o 0x1100 0x15 = 1 → d.ring.readSpace = 2 →
        ∃ t, exec (.bulkReadFetchDone upset) st = .next t ∧ t.pending = st.pending ∧ t.dev.o 0x1100 0x15 = 2 ∧
          t.dev.ring.readData = d.sramRead base n ∧ t.dev.ring.readPoison = e.sramBadWords base n ∧
          ∀ x ∈ upset, base ≤ 4 * x.val → 4 * x.val < base + n → x.val ∈ t.dev.ring.readPoison) ∧
      (d.o 0x1100 0x15 = 1 → d.ring.readSpace = 0 → ∀ tiles, tiles = rangeTiles base n →
        (tiles.any d.tileWaits = true → exec (.bulkReadFetchDone upset) st = .next { st with dev := e }) ∧
        (tiles.any d.tileWaits = false → tiles.all d.tileTakes = false →
          ∃ t, exec (.bulkReadFetchDone upset) st = .next t ∧ t.pending = st.pending ∧ e.OnlyKeys t.dev [okey 0x1100 0x15] ∧
            t.dev.o 0x1100 0x15 = 3) ∧
        (tiles.any d.tileWaits = false → tiles.all d.tileTakes = true →
          ∃ t, exec (.bulkReadFetchDone upset) st = .next t ∧ t.pending = st.pending ∧ t.dev.o 0x1100 0x15 = 2 ∧
            t.dev.ring.readData = d.bestEffortRead base n))) ∧
    (∀ (x y : Datagram) (g : Target), y = { x with typ := 0x12 } → bulkTarget x.target.toNat = some g → g.space ≠ 1 →
      ∀ e, e = d.frameBefore d.ring.link false → e.takesDatagram y → dgLength x ≠ 0 → e.targetOk g (dgLength x) = true →
      (e.readCovers g (dgLength x) = true → ∃ t, exec (.brd x) st = .next t ∧ t.pending = st.pending ∧
        e.actedOn t.dev { y with flags := (if e.readPoisoned g (dgLength x) then x.flags ||| 2 else x.flags) }
          (returned x (e.readPart g (dgLength x))) 1) ∧
      (e.readCovers g (dgLength x) = false → ∃ t, exec (.brd x) st = .next t ∧ t.pending = st.pending ∧
        e.passedOn t.dev y (List.replicate (dgLength x) 0) false))

/-- A SYNC records the cycle of the last cyclic frame, the cycle number and the offset; within 1 us of the reference ring time
goes on, beyond it ring time steps to the reference; a missed deadline of the frame before is counted. It leaves with the bit
of the device's ring position set in its bitmap exactly if the frame before met its deadline (R46), and with its correction
raised by the link delay and the residence time (R49); the bits of positions 254 and 255 never are set. The frame of a
datagram command is log entry 82, the rounding of the delays log entry 84, and the upstream delay on both paths of a PTP Sync
log entry 96. TRD returns ring time and its fraction. A propagation-delay measurement is shown. A PTP Sync leaves with its
correction raised by link and residence time, another message as it came. Without a SYNC for 10 ms the time lock clears, with
EV024. EVT with no report due passes unchanged; an empty slot takes the report that is due with the oldest first occurrence,
which is then no longer pending. -/
def Obligations.RingTimeAndEventCollection : Prop :=
  ∀ (st : State), st.running →
    let d := st.dev
    (∀ (x y : Datagram) (residence : Nat), y = { x with typ := 0x30 } → d.ring.position = 0 → x.target = 0 →
      ∀ e, e = d.frameBefore d.ring.link true → e.takesDatagram y →
      ∀ off, off = sx 80 (ux 80 ((e.localTime : Int) - e.syncReference (dgData x))) →
      ∀ p data, p = e.o 0x1100 0x04 →
        data = (if p ≤ 253 ∧ e.ring.prevCyclic = .met then setAck (dgData x) p else dgData x) →
      ∃ t, exec (.sync x residence) st = .next t ∧ t.pending = st.pending ∧
        e.actedOn t.dev y (data.take 10 ++ leBytes 6 (ux 48 (sx 48 (ofLE (((dgData x).drop 10).take 6)) + e.linkTime + residence)) ++
          data.drop 16) 1 ∧
        t.dev.ring.lastCyclic = e.cycle ∧ t.dev.ring.lastSync = e.cycle ∧ t.dev.ring.prevCyclic = .missed ∧
        t.dev.o 0x1100 0x0F = ofLE (((dgData x).drop 16).take 4) ∧
        (-2147483648 ≤ off → off ≤ 2147483647 → t.dev.o 0x1100 0x0D = ux 32 off) ∧
        (off.natAbs ≤ 65536000 → t.dev.ringNs = e.ringNs ∧ t.dev.ringFrac = e.ringFrac) ∧
        (65536000 < off.natAbs → t.dev.localTime = ux 80 ((e.localTime : Int) - off)) ∧
        (e.ring.prevCyclic = .missed → e.o 0x1100 0x04 ≤ 253 →
          t.dev.o 0x1100 0x16 = min (e.o 0x1100 0x16 + 1) (2 ^ 32 - 1)) ∧
        (e.ring.prevCyclic ≠ .missed ∨ 253 < e.o 0x1100 0x04 → t.dev.o 0x1100 0x16 = e.o 0x1100 0x16)) ∧
    (∀ (x y : Datagram), y = { x with typ := 0x31 } → x.target = 0 → ∀ e, e = d.frameBefore d.ring.link false → e.takesDatagram y →
      ∃ t, exec (.trd x) st = .next t ∧ t.pending = st.pending ∧ t.dev = { e with objs := t.dev.objs, ring := t.dev.ring } ∧
        e.actedOn t.dev y (returned x (leBytes 8 e.ringNs ++ leBytes 2 e.ringFrac)) 1) ∧
    (∀ (delay : BitVec 32), ∃ t, exec (.pdelayMeasurement delay) st = .next t ∧ t.pending = st.pending ∧
      d.OnlyKeys t.dev [okey 0x1100 0x09] ∧ t.dev.o 0x1100 0x09 = delay.toNat) ∧
    (∀ (sync : Bool) (correction : BitVec 64) (residence : Nat), ∃ t, exec (.ptpFrame sync correction residence) st = .next t ∧
      t.pending = st.pending ∧ t.dev = { d with ring := { d.ring with txPtp :=
        (if sync then BitVec.ofNat 64 (ux 64 (sx 64 correction.toNat + d.linkTime + residence)) else correction) } }) ∧
    (d.cycle < d.ring.lastSync + 10000000 → d.ring.lockBad < 8 → exec .syncAbsenceTimeout st = .next st) ∧
    (d.ring.lastSync + 10000000 ≤ d.cycle ∨ 8 ≤ d.ring.lockBad →
      (d.o 0x1100 0x0E ≠ 1 → ∃ t, exec .syncAbsenceTimeout st = .next t ∧ t.pending = st.pending ∧
        t.dev = { d with ring := { d.ring with lockGood := 0 } }) ∧
      (d.o 0x1100 0x0E = 1 → ∃ t y, exec .syncAbsenceTimeout st = .next t ∧ t.pending = st.pending ∧
        t.dev.o 0x1100 0x0E = 0 ∧ d.sameBut t.dev [okey 0x1100 0x0E] ∧ t.dev.event.raised = d.event.raised ++ [y] ∧ y.src = 24)) ∧
    (∀ (x y : Datagram), y = { x with typ := 0x20 } → x.target = 0 → ∀ e, e = d.frameBefore d.ring.link false → e.takesDatagram y →
      (e.nextReport = none → ∃ t, exec (.evt x) st = .next t ∧ t.pending = st.pending ∧ e.passedOn t.dev y (dgData x) false ∧
        t.dev.event = e.event) ∧
      (∀ r, e.nextReport = some r → dgData x = List.replicate 16 0 → ∃ t, exec (.evt x) st = .next t ∧ t.pending = st.pending ∧
        e.actedOn t.dev y (e.reportBytes r) 1 ∧ t.dev.event.reports = e.event.reports.filter (fun b => b.src != r.src)))

/-- In OPERATIONAL with no cyclic frame for longer than the watchdog value the ring state and the requested state become PRE-
OPERATIONAL, the SSP gets OPERATOR back, EV020 and EV018 are raised and no site is touched; else nothing changes; that the
watchdog acts in OPERATIONAL only is log entry 83. A request for a state up to PRE-OPERATIONAL takes effect after ring join,
one for OPERATIONAL is held until the time is locked, and then limits the SSP to OBSERVER. A link that comes up or goes down
shows in the port status, with EV019; each one that comes up takes the port mode written last and returns the ring port to
OPERATOR (log entry 83), and the first ends boot stage 5 in ring state 1; a link that is up already does not come up again. -/
def Obligations.RingStatesAndLinks : Prop :=
  ∀ (st : State), st.running →
    let d := st.dev
    let limit := 1000 * d.o 0x1100 0x07
    (limit = 0 ∨ d.cycle ≤ d.ring.lastCyclic + limit ∨ d.o 0x1100 0x05 ≠ 3 → exec .cyclicWatchdogExpiry st = .next st) ∧
    (limit ≠ 0 → d.ring.lastCyclic + limit < d.cycle → d.o 0x1100 0x05 = 3 →
      ∃ t y z, exec .cyclicWatchdogExpiry st = .next t ∧ t.pending = st.pending ∧
        t.dev = { d with objs := t.dev.objs, event := { d.event with raised := t.dev.event.raised, snap := t.dev.event.snap } } ∧
        d.sameBut t.dev [okey 0x1100 0x05, okey 0x1100 0x06, portKey .ssp 0x1000 0x10] ∧ t.dev.o 0x1100 0x05 = 2 ∧
        t.dev.o 0x1100 0x06 = 2 ∧ t.dev.role .ssp = 1 ∧ t.dev.event.raised = d.event.raised ++ [y, z] ∧ y.src = 20 ∧ z.src = 18) ∧
    (∀ (p : Port) (v : Byte), d.accepts p 0x1100 0x06 v.toNat false →
      ∃ t, exec (.requestedRingState p v) st = .next t ∧ t.pending = st.pending ∧ t.dev.o 0x1100 0x06 = v.toNat ∧
        (v.toNat ≤ 2 → d.joined = true → t.dev.o 0x1100 0x05 = v.toNat) ∧
        (2 < v.toNat ∨ d.joined = false → d.OnlyKeys t.dev [okey 0x1100 0x06])) ∧
    (d.joined = false ∨ d.o 0x1100 0x06 ≠ 3 ∨ d.o 0x1100 0x0E ≠ 1 → exec .ringOperational st = .next st) ∧
    (d.joined = true → d.o 0x1100 0x06 = 3 → d.o 0x1100 0x0E = 1 → d.o 0x1100 0x05 ≠ 3 →
      ∃ t y, exec .ringOperational st = .next t ∧ t.pending = st.pending ∧ t.dev.o 0x1100 0x05 = 3 ∧ t.dev.role .ssp = 0 ∧
        d.sameBut t.dev [okey 0x1100 0x05, portKey .ssp 0x1000 0x10] ∧ t.dev.event.raised = d.event.raised ++ [y] ∧ y.src = 20) ∧
    (∀ (l : Link) (was : Nat), was = d.o 0x1100 0x0A % 4 →
      let mode (t : Device) : Nat := match l with
        | .up => t.ring.portMode.1
        | .down => t.ring.portMode.2
      let status (t : Device) (now : Nat) : Prop := t.o 0x1100 0x0A = now ∧
        d.sameBut t [okey 0x1100 0x0A, portKey .ring 0x1000 0x10] ∧
        (now = d.o 0x1100 0x0A → t.event = d.event) ∧
        (now ≠ d.o 0x1100 0x0A → ∃ y, t.event.raised = d.event.raised ++ [y] ∧ y.src = 19)
      (bit was (linkBit l) = true → exec (.linkUp l) st = .next st) ∧
      (bit was (linkBit l) = false → ∀ now, now = portStatus (setBit was (linkBit l) true) →
        (d.joined = true ∨ d.o 0x1200 0x01 ≠ 5 → ∃ t, exec (.linkUp l) st = .next t ∧ t.pending = st.pending ∧
          status t.dev now ∧ mode t.dev = d.o 0x1100 0x1A ∧
          t.dev.role .ring = (if d.joined = true then 1 else d.role .ring)) ∧
        (d.joined = false → d.o 0x1200 0x01 = 5 → ∃ t, exec (.linkUp l) st = .next t ∧ t.pending = st.pending ∧
          t.dev.o 0x1100 0x05 = 1 ∧ t.dev.role .ring = 1 ∧ t.dev.o 0x1100 0x0A = now ∧ mode t.dev = d.o 0x1100 0x1A)) ∧
      (∃ t, exec (.linkDown l) st = .next t ∧ t.pending = st.pending ∧ t.dev.role .ring = d.role .ring ∧
        t.dev.ring = d.ring ∧ status t.dev (portStatus (setBit was (linkBit l) false))))

/-- A request for OBSERVER or OPERATOR takes effect at once and ends a pending one; one for ENGINEER or SERVICE is pending and
changes no role. A response during a lockout does nothing, with no request pending it is a violation of kind 4, the right one
grants the role and clears the failures, a wrong one counts, at every 16th with a lockout of 60 s. A write to an object is
ignored before ring join on the ring; a violation of kinds 0 to 3 is counted, recorded and changes nothing else; on the ring
data of a wrong size are malformed. A DPS force code keeps its low 24 bits, sign-extended. The announcement of a bulk load
clears its position and progress. -/
def Obligations.RolesAndObjects : Prop :=
  ∀ (st : State) (p : Port), st.running →
    let d := st.dev
    let log : List Nat := [okey 0x4000 0x01, okey 0x4000 0x02]
    let granted (r : Nat) : Nat := if p = .ssp ∧ d.o 0x1100 0x05 = 3 then 0 else r
    (∀ (v : Byte), d.accepts p 0x1000 0x11 v.toNat false →
      (v.toNat ≤ 1 → ∃ t, exec (.roleRequest p v) st = .next t ∧ t.pending = st.pending ∧ t.dev.pendingRole p = none ∧
        t.dev.role p = granted v.toNat ∧ d.sameBut t.dev [portKey p 0x1000 0x10, portKey p 0x1000 0x11]) ∧
      (1 < v.toNat → ∃ t, exec (.roleRequest p v) st = .next t ∧ t.pending = st.pending ∧
        t.dev.pendingRole p = some v.toNat ∧ t.dev.role p = d.role p ∧
        d.sameBut t.dev [portKey p 0x1000 0x11, portKey p 0x1000 0x12])) ∧
    (∀ (data : List Byte), (p = .ring → d.joined = true) → d.accessKind p true 0x1000 0x13 = none →
      data.length = objSize 0x1000 0x13 → d.valueOk 0x1000 0x13 (ofLE data) = true →
      (d.lockedOut p = true → exec (.roleResponse p data) st = .next st) ∧
      (d.lockedOut p = false → d.pendingRole p = none → ∃ t, exec (.roleResponse p data) st = .next t ∧
        t.pending = st.pending ∧ d.OnlyKeys t.dev log ∧ d.violated t.dev p 0x1000 0x13 4) ∧
      (∀ r right, d.lockedOut p = false → d.pendingRole p = some r →
        right = decide (ofLE data % 2 ^ 16 = 32 ∧ leBytes 32 (ofLE data / 2 ^ 16) = d.rightResponse p r) →
        (right = true → ∃ t, exec (.roleResponse p data) st = .next t ∧ t.pending = st.pending ∧ t.dev.role p = granted r ∧
          t.dev.pendingRole p = none ∧ t.dev.get (portKey p 0x1000 0x14) = 0) ∧
        (right = false → ∃ t, exec (.roleResponse p data) st = .next t ∧ t.pending = st.pending ∧ t.dev.role p = d.role p ∧
          t.dev.pendingRole p = some r ∧
          t.dev.get (portKey p 0x1000 0x14) = min (d.get (portKey p 0x1000 0x14) + 1) 65535 ∧
          (d.get (portKey p 0x1000 0x14) < 65535 → (d.get (portKey p 0x1000 0x14) + 1) % 16 = 0 →
            ofPort p t.dev.ring.lockoutEnd = d.cycle + 60000000000) ∧
          (d.get (portKey p 0x1000 0x14) < 65535 → (d.get (portKey p 0x1000 0x14) + 1) % 16 ≠ 0 →
            t.dev.ring.lockoutEnd = d.ring.lockoutEnd)))) ∧
    (d.lockedOut p = true → exec (.lockoutEnd p) st = .next st) ∧
    (d.lockedOut p = false → ∃ t, exec (.lockoutEnd p) st = .next t ∧ t.pending = st.pending ∧
      t.dev = { d with ring := { d.ring with lockoutEnd := t.dev.ring.lockoutEnd } } ∧ ofPort p t.dev.ring.lockoutEnd = 0) ∧
    (∀ (v : BitVec 64), d.accepts p 0x1100 0x1B v.toNat false → ∃ t, exec (.bulkLoadTotal p v) st = .next t ∧
      t.pending = st.pending ∧ d.OnlyKeys t.dev [okey 0x1100 0x1B, okey 0x1100 0x1C, okey 0x1100 0x1D] ∧
      t.dev.o 0x1100 0x1B = v.toNat ∧ t.dev.o 0x1100 0x1C = 0 ∧ t.dev.o 0x1100 0x1D = 0) ∧
    (∀ (ix : BitVec 16) (sub : Byte) (data : List Byte),
      (p = .ring → d.joined = false → exec (.objectWrite p ix sub data) st = .next st) ∧
      ((p = .ring → d.joined = true) →
        (∀ k, d.accessKind p true ix.toNat sub.toNat = some k → ∃ t, exec (.objectWrite p ix sub data) st = .next t ∧
          t.pending = st.pending ∧ d.OnlyKeys t.dev log ∧ d.violated t.dev p ix.toNat sub.toNat k) ∧
        (d.accessKind p true ix.toNat sub.toNat = none → data.length ≠ objSize ix.toNat sub.toNat →
          (p = .ssp → exec (.objectWrite p ix sub data) st = .next st) ∧
          (p = .ring → ∃ t, exec (.objectWrite p ix sub data) st = .next t ∧ t.pending = st.pending ∧
            d.OnlyKeys t.dev [okey 0x1100 0x11] ∧ t.dev.o 0x1100 0x11 = min (d.o 0x1100 0x11 + 1) (2 ^ 32 - 1))) ∧
        (d.accessKind p true ix.toNat sub.toNat = none → data.length = objSize ix.toNat sub.toNat →
          d.valueOk ix.toNat sub.toNat (ofLE data) = false → ∃ t, exec (.objectWrite p ix sub data) st = .next t ∧
          t.pending = st.pending ∧ d.OnlyKeys t.dev log ∧ d.violated t.dev p ix.toNat sub.toNat 3) ∧
        (∀ (k : Dps), ix.toNat = dpsIx k → sub.toNat = 0x02 → data.length = 4 → d.accepts p (dpsIx k) 0x02 (ofLE data) false →
          ∃ t, exec (.objectWrite p ix sub data) st = .next t ∧ t.pending = st.pending ∧
            d.OnlyKeys t.dev [okey (dpsIx k) 0x02] ∧ t.dev.o (dpsIx k) 0x02 = code24 (ofLE data))))

/-- PORST_N released, asserted, or a VAON reset (which keeps the copies: log entry 72) puts every object but the Primrose copies
to its reset value and every memory, pin, site and ring record to its initial one; only an assertion holds the part in reset.
Wake ends stage 1 (a REFCLK that does not toggle: log entry 112). The fuses end stage 2: each segment with at most ten wrong
bits is corrected, the fields show, and a serial group that cannot be read is FAILED (log entry 112 for what then stops). A
part of a boot frame shows in position and percent (log entry 74), and its end adds its bytes to the slot's. A slot that was
read and passes its checks ends stage 3, with its slot, length and security version shown; a first one that fails gives way
to the second where there is one, and the last one FAILS boot with its code and all channels at DZ. The microcode, loaded
again where its CRC does not match (byte order: log entry 112), ends stage 4 with each quad's store, CRC and state, or
FENCED. A restart goes back to stage 2 with all channels at DZ (log entry 73). A burn shows in ROLLBACK at once (log entry
69; R336 makes the new value count from the next boot). -/
def Obligations.BootStagesPass : Prop :=
  ∀ (st : State),
    let d := st.dev
    let copies : List Nat := [okey 0x1220 1, okey 0x1220 2, okey 0x1220 3]
    let clear (e : Device) : Prop := (∀ k ∉ copies, e.get k = resetValue k) ∧ (∀ k ∈ copies, e.get k = d.get k) ∧
      e.mem = MemState.init ∧ e.pins = PinState.init ∧ e.sites = SiteState.init ∧ e.ring = RingState.init ∧
      e.event = EventState.init ∧ e.dps = DpsState.init ∧ e.pend = [] ∧ e.heads = [] ∧ e.cycle = 0 ∧ e.refclk = .absent
    (∃ t, exec .porstN st = .next t ∧ t.pending = st.pending ∧ clear t.dev ∧ t.dev.boot.held = false) ∧
    (∃ t, exec .porstNAssertion st = .next t ∧ t.pending = st.pending ∧ clear t.dev ∧ t.dev.boot.held = true) ∧
    (∃ t, exec .vaonReset st = .next t ∧ t.pending = st.pending ∧ clear t.dev ∧ t.dev.boot.held = d.boot.held) ∧
    (st.running →
      (∀ toggles, d.o 0x1200 0x01 ≠ 1 → exec (.wake toggles) st = .next st) ∧
      (∀ toggles, d.o 0x1200 0x01 = 1 → ∃ t, exec (.wake toggles) st = .next t ∧ t.pending = st.pending ∧
        t.dev.refclk = (if toggles then .present else .absent) ∧ t.dev.relock = 0 ∧ t.dev.o 0x1200 0x01 = 2 ∧ t.dev.o 0x1200 0x02 = 2 ∧
        d.sameBut t.dev [okey 0x1200 0x01, okey 0x1200 0x02]) ∧
      (∀ programmed wrong, d.o 0x1200 0x01 ≠ 2 → exec (.fuseReadDone programmed wrong) st = .next st) ∧
      (∀ (programmed wrong : BitVec 16384) (map bad : Nat), d.o 0x1200 0x01 = 2 →
        map = correctedMap programmed.toNat wrong.toNat → bad = badMask wrong.toNat →
        ((∀ k < 8, segmentErrors wrong.toNat k ≤ 10) → map = programmed.toNat) ∧
        (∀ k < 8, bit bad k = decide (10 < segmentErrors wrong.toNat k)) ∧
        ∃ t, exec (.fuseReadDone programmed wrong) st = .next t ∧ t.pending = st.pending ∧
        t.dev.o 0x1000 0x05 = bitf map 0 64 ∧ t.dev.o 0x1000 0x03 = bitf map 64 8 ∧ t.dev.o 0x1000 0x04 = bitf map 72 8 ∧
        t.dev.o 0x1210 0x02 = bitf map 832 64 ∧ t.dev.o 0x1210 0x03 = bad ∧ t.dev.o 0x1210 0x04 = correctedBits wrong.toNat ∧
        t.dev.o 0x1210 0x05 = bitCount 64 (bitf map 768 64 ||| d.boot.burned) ∧
        t.dev.boot.devkey.toNat = bitf map 512 256 ∧ t.dev.boot.pkhash.toNat = bitf map 128 384 ∧
        t.dev.boot.mapver.toNat = bitf map 80 16 ∧ t.dev.boot.rcTrim.toNat = bitf map 96 32 ∧
        t.dev.boot.locks.toNat = bitf map 896 64 ∧ (bad < 2 → t.dev.boot.trims.toNat = bitf map 960 14400) ∧
        (bit bad 0 = false → t.dev.o 0x1200 0x01 = 3 ∧ t.dev.o 0x1200 0x02 = 5 ∧ t.dev.boot.slot = d.boot.slot) ∧
        (bit bad 0 = true → t.dev.o 0x1200 0x01 = 8 ∧ t.dev.o 0x1200 0x04 = 1 ∧ t.dev.o 0x1230 0x01 = 0 ∧
          t.dev.o 0x1231 0x01 = 0 ∧ ∀ n < 512, t.dev.pinOf n = Pin.init)) ∧
      (∀ (n : BitVec 16) len pos, d.boot.csp = some (.bootRead len) → pos = d.boot.slotData.length + n.toNat →
        (d.refclk ≠ .present ∨ len < n.toNat → exec (.imageReadDone (.part n)) st = .next st) ∧
        (d.refclk = .present → n.toNat ≤ len → ∃ t, exec (.imageReadDone (.part n)) st = .next t ∧
          t.pending = st.pending ∧ d.OnlyKeys t.dev [okey 0x1200 0x02, okey 0x1200 0x03] ∧
          t.dev.o 0x1200 0x03 = max (d.o 0x1200 0x03) (d.boot.slotBytes + pos) ∧
          t.dev.o 0x1200 0x02 = (if headerPasses d.boot.slotData then 5 + 75 * pos / imageLength d.boot.slotData
            else d.o 0x1200 0x02))) ∧
      (∀ len data, d.boot.csp = some (.bootRead len) → d.refclk = .present → len ≤ data.length →
        ∃ t, exec (.cspFrameDone data) st = .next t ∧ t.pending = st.pending ∧
          t.dev.boot.slotData = d.boot.slotData ++ data.take len ∧
          t.dev.o 0x1200 0x03 = max (d.o 0x1200 0x03) (d.boot.slotBytes + (d.boot.slotData.length + len))) ∧
      (d.slotWasRead = false → exec (.imageReadDone .whole) st = .next st) ∧
      (∀ b c, d.slotWasRead = true → b = d.boot.slotData → c = imageFailure b d.boot.pkhash.toNat (d.o 0x1210 0x05) →
        (c = 0 → ∃ t, exec (.imageReadDone .whole) st = .next t ∧ t.pending = st.pending ∧ t.dev.o 0x1200 0x01 = 4 ∧
          t.dev.o 0x1200 0x02 = 85 ∧ t.dev.o 0x1200 0x05 = d.boot.slot ∧ t.dev.o 0x1200 0x07 = imageLength b ∧
          t.dev.o 0x1200 0x08 = imageField b 12 4 ∧ t.dev.boot.image = some (stageImage d.boot.slot b) ∧
          t.dev.o 0x1230 0x01 = 1 ∧ t.dev.o 0x1231 0x01 = 1) ∧
        (c ≠ 0 → d.boot.slot = 0 → bit (d.o 0x1210 0x02) 0 = true → ∃ t, exec (.imageReadDone .whole) st = .next t ∧
          t.pending = st.pending ∧ t.dev.o 0x1200 0x01 = 3 ∧ t.dev.boot.slot = 1 ∧ t.dev.boot.slotData = [] ∧
          t.dev.o 0x1200 0x09 = c) ∧
        (c ≠ 0 → d.boot.slot ≠ 0 ∨ bit (d.o 0x1210 0x02) 0 = false → ∃ t, exec (.imageReadDone .whole) st = .next t ∧
          t.pending = st.pending ∧ t.dev.o 0x1200 0x01 = 8 ∧ t.dev.o 0x1200 0x04 = c ∧ t.dev.o 0x1230 0x01 = 0 ∧
          t.dev.o 0x1231 0x01 = 0 ∧ ∀ n < 512, t.dev.pinOf n = Pin.init)) ∧
      (∀ fs, d.boot.image = none ∨ d.o 0x1200 0x01 ≠ 4 → exec (.microcodeBroadcastDone fs) st = .next st) ∧
      (∀ fs im, d.boot.image = some im → d.o 0x1200 0x01 = 4 → im.defaults = [] → d.linkUpNow = false →
        ∀ (crc : Nat) (load : Nat → List (BitVec 96) × Nat), crc = im.storeCrc → (∀ q, load q = (
          let first := storeLoad fs false q im.microcode (storeCrc im.microcode)
          if first.2 = crc then first else storeLoad fs true q im.microcode (storeCrc im.microcode))) →
        ∃ t, exec (.microcodeBroadcastDone fs) st = .next t ∧ t.pending = st.pending ∧ t.dev.o 0x1200 0x01 = 5 ∧
          t.dev.o 0x1260 0x04 = im.isa ∧ t.dev.o 0x1260 0x05 = crc ∧
          (∀ q < 128, Cells.read [] q t.dev.boot.stores = (load q).1 ∧ t.dev.o (quadIx q) 0x6F = (load q).2 ∧
            t.dev.o (quadIx q) 0x60 = (if (load q).2 = crc then d.memberState q else 6)) ∧
          t.dev.o 0x1260 0x06 = ((List.range 128).filter fun q => (load q).2 = crc).length) ∧
      (∀ (p : Port) (v : Byte), d.accepts p 0x1200 0x0B v.toNat (restartForbidden p d) →
        ∃ t, exec (.bootRestart p v) st = .next t ∧ t.pending = st.pending ∧ t.dev.o 0x1200 0x01 = 2 ∧ t.dev.o 0x1200 0x02 = 2 ∧
          t.dev.o 0x1100 0x05 = 0 ∧ t.dev.o 0x1230 0x01 = 0 ∧ t.dev.o 0x1231 0x01 = 0 ∧ t.dev.boot.released = 0 ∧
          t.dev.boot.csp = none ∧ t.dev.boot.image = none ∧ t.dev.boot.devkey = d.boot.devkey ∧
          t.dev.boot.stores = d.boot.stores ∧ ∀ n < 512, t.dev.pinOf n = Pin.init) ∧
      (∀ (p : Port) (v : Byte), d.accepts p 0x1210 0x05 v.toNat false →
        ∃ t, exec (.rollbackBurn p v) st = .next t ∧ t.pending = st.pending ∧ t.dev.o 0x1210 0x05 = v.toNat ∧
          t.dev.boot.burned = setBit d.boot.burned (v.toNat - 1) true ∧ d.sameBut t.dev [okey 0x1210 0x05]))

/-- The watchdog restarts a core that runs or restarts, counts, and empties its cache; a core in reset or halted is left alone. A
page whose SHA-384 is that of the booted image starts the core, and a RESTARTING one runs again (log entry 69), and stands in
its cache; another is counted and the third in a row on one page halts it; a core in reset or halted, or whose window a
translated write uses, takes no page (log entry 71). A re-read shows the copies, repaired to their majority where there is
one, keeps what the read paths turn over (log entry 71), and enters SAFE-HOLD exactly if a supervisor was there and its
readers no longer agree on a half. An assignment in SAFE-HOLD writes the three copies; if the half's own path reads them so,
it is supervisor and SAFE-HOLD ends, else both stay secondary. Outside SAFE-HOLD it is refused while something runs, else it
waits for the table period. -/
def Obligations.CoresAndPrimacy : Prop :=
  ∀ (st : State), st.running →
    let d := st.dev
    (∀ (h : Half), let core := 0x1230 + h.val
      (d.o core 0x01 ≠ 1 → d.o core 0x01 ≠ 2 → exec (.coreWatchdog h) st = .next st) ∧
      (d.o core 0x01 = 1 ∨ d.o core 0x01 = 2 → ∃ t, exec (.coreWatchdog h) st = .next t ∧ t.pending = st.pending ∧
        d.sameBut t.dev [okey core 0x01, okey core 0x04, okey core 0x06] ∧ t.dev.o core 0x01 = 2 ∧ t.dev.o core 0x06 = 1 ∧
        t.dev.o core 0x04 = min (d.o core 0x04 + 1) (2 ^ 32 - 1) ∧ t.dev.cached h = []) ∧
      (∀ (page : BitVec 10) (x : List Byte),
        (d.o core 0x01 = 0 ∨ d.o core 0x01 = 3 ∨ d.windowBusy d.bootSelect = true →
          exec (.pageFill h page x) st = .next st) ∧
        (d.o core 0x01 ≠ 0 → d.o core 0x01 ≠ 3 → d.windowBusy d.bootSelect = false → ∀ good n,
          n = d.pageMisses h page.toNat + 1 →
          (good ↔ ∃ im, d.boot.image = some im ∧ im.pageDigests[page.toNat]? = some (sha384 x)) →
          (good → ∃ t, exec (.pageFill h page x) st = .next t ∧ t.pending = st.pending ∧ t.dev.o core 0x01 = 1 ∧
            d.sameBut t.dev (okey core 0x01 :: (List.range 8).flatMap Device.settleKeys) ∧
            (page.toNat, x) ∈ t.dev.cached h ∧ ∀ i, t.dev.pageMisses h i = 0) ∧
          (¬good → ∃ t, exec (.pageFill h page x) st = .next t ∧ t.pending = st.pending ∧
            t.dev.o core 0x05 = min (d.o core 0x05 + 1) (2 ^ 32 - 1) ∧
            d.sameBut t.dev [okey core 0x01, okey core 0x05, okey core 0x06] ∧ t.dev.cached h = d.cached h ∧
            (n < 3 → t.dev.o core 0x01 = d.o core 0x01 ∧ t.dev.pageMisses h page.toNat = n ∧
              ∀ i, i ≠ page.toNat → t.dev.pageMisses h i = 0) ∧
            (3 ≤ n → t.dev.o core 0x01 = 3 ∧ t.dev.o core 0x06 = 2 ∧ ∀ i, t.dev.pageMisses h i = 0))))) ∧
    (∀ (a w e : Copies) (lost : Bool),
      lost = (majorityHalf a == 2 || (if majorityHalf a = 0 then majorityHalf w else majorityHalf e) != majorityHalf a) →
      ∃ t, exec (.primroseReread a w e) st = .next t ∧ t.pending = st.pending ∧
        t.dev.o 0x1220 0x05 = majorityHalf w ∧ t.dev.o 0x1220 0x06 = majorityHalf e ∧
        (majority a = none → t.dev.primrose 0 = a.c0.toNat ∧ t.dev.primrose 1 = a.c1.toNat ∧ t.dev.primrose 2 = a.c2.toNat) ∧
        (∀ good, majority a = some good → ∀ k < 3, t.dev.primrose k = good) ∧
        (d.o 0x1220 0x04 ≤ 1 → lost = true → t.dev.boot.safeHold = true) ∧
        (1 < d.o 0x1220 0x04 ∨ lost = false → t.dev.boot = { d.boot with pathW := pathOf a w, pathE := pathOf a e } ∧
          t.dev.o 0x1220 0x04 = d.o 0x1220 0x04)) ∧
    (∀ (p : Port) (v : Byte), d.accepts p 0x1220 0x07 v.toNat false →
      (d.boot.safeHold = true → ∀ (path : Copies) (c : BitVec 32), path = (if v = 0 then d.boot.pathW else d.boot.pathE) →
        c = BitVec.ofNat 32 (makeCopy v.toNat d.nextGen) →
        ∃ t, exec (.primacyAssignment p v) st = .next t ∧ t.pending = st.pending ∧
        (∀ k < 3, t.dev.primrose k = makeCopy v.toNat d.nextGen) ∧ t.dev.o 0x1220 0x08 = 1 ∧
        t.dev.boot.pendingPrimacy = none ∧
        (majorityHalf ⟨c ^^^ path.c0, c ^^^ path.c1, c ^^^ path.c2⟩ = v.toNat →
          t.dev.o 0x1220 0x04 = v.toNat ∧ t.dev.boot.safeHold = false ∧
          (d.boot.released = 1 → d.o 0x1200 0x01 = 7 → t.dev.o 0x1200 0x01 = 6)) ∧
        (majorityHalf ⟨c ^^^ path.c0, c ^^^ path.c1, c ^^^ path.c2⟩ ≠ v.toNat →
          t.dev.o 0x1220 0x04 = 2 ∧ t.dev.boot.safeHold = true)) ∧
      (d.boot.safeHold = false → d.primacyBusy = true → ∃ t, exec (.primacyAssignment p v) st = .next t ∧
        t.pending = st.pending ∧ d.OnlyKeys t.dev [okey 0x1220 0x08] ∧ t.dev.o 0x1220 0x08 = 2) ∧
      (d.boot.safeHold = false → d.primacyBusy = false → ∃ t, exec (.primacyAssignment p v) st = .next t ∧
        t.pending = st.pending ∧ t.dev.boot = { d.boot with pendingPrimacy := some v.toNat, held := false } ∧
        t.dev.o 0x1220 0x08 = 1 ∧ d.sameBut t.dev [okey 0x1220 0x08]))

/-- A host frame start is ignored while BUSY, refused for a bad descriptor, done at once for an empty one, and else makes the
port BUSY and runs when it is free; its end frees the port, counts and shows OK. A frame that CSP_RDY holds beyond the ready
timeout ends with EV025: a host frame shows TIMEOUT, a read gives nothing, a poll comes again, a boot frame fails its slot. A
window read or write of a disabled select does nothing; of an enabled one it takes a free port; after the program frame come
status frames, whose status ends the piece or brings the next poll after its interval; the write timeout ends a write with
EV025, between status frames (the counting of OK frames, the timeouts and the buffer: log entry 78). A disabled SSP ignores
every frame; a header error is answered with its reason and counted as a discard; reads, range reads and STATUS answer with
their data and a CRC-8, violations with zeros; a write is checked for its data and takes effect; a discard is recorded as
SHORT, or as OPCODE where the header is good and its opcode is none of the five (a reversed range answers LENGTH, an unknown
opcode OPCODE, and an end inside a byte SHORT: log entry 77). -/
def Obligations.SerialPortsServe : Prop :=
  ∀ (st : State), st.running →
    let d := st.dev
    let quiet : Prop := d.bootFrame = none ∧ d.boot.reads = [] ∧ d.boot.writes = []
    let idle : Prop := d.boot.csp = none ∧ quiet
    (∀ (p : Port) (v : Byte) (x : Nat), d.accepts p 0x1240 0x03 v.toNat false → x = d.o 0x1240 0x01 →
      (d.o 0x1240 0x04 = 1 → exec (.hostFrameStart p v) st = .next st) ∧
      (d.o 0x1240 0x04 ≠ 1 → cspGood true x = false → ∃ t, exec (.hostFrameStart p v) st = .next t ∧ t.pending = st.pending ∧
        d.OnlyKeys t.dev [okey 0x1240 0x04] ∧ t.dev.o 0x1240 0x04 = 4) ∧
      (d.o 0x1240 0x04 ≠ 1 → cspGood true x = true → cspEmpty x = true → ∃ t, exec (.hostFrameStart p v) st = .next t ∧
        t.pending = st.pending ∧ d.OnlyKeys t.dev [okey 0x1240 0x04, okey 0x1240 0x05] ∧ t.dev.o 0x1240 0x04 = 2 ∧
        t.dev.o 0x1240 0x05 = min (d.o 0x1240 0x05 + 1) (2 ^ 32 - 1)) ∧
      (d.o 0x1240 0x04 ≠ 1 → cspGood true x = true → cspEmpty x = false → ∃ t, exec (.hostFrameStart p v) st = .next t ∧
        t.pending = st.pending ∧ t.dev.o 0x1240 0x04 = 1 ∧ d.sameBut t.dev [okey 0x1240 0x04] ∧ t.dev.boot.hostDesc = x ∧
        (idle → t.dev.boot.csp = some .host ∧ t.dev.boot.cspDesc = x ∧ t.dev.boot.cspSince = d.cycle ∧
          (cspWrites x = false → t.dev.boot.cspOut = []) ∧ (cspWrites x = true → ∀ i < cspLength x, ∀ v, v = d.o 0x1240 0x02 →
            t.dev.boot.cspOut[i]? = if i < v % 2 ^ 16 then some (BitVec.ofNat 8 (v / 2 ^ 16 / 256 ^ i)) else none)) ∧
        (d.boot.csp ≠ none → t.dev.boot.csp = d.boot.csp))) ∧
    (∀ data, d.boot.csp = none → exec (.cspFrameDone data) st = .next st) ∧
    (∀ data, d.boot.csp = some .host → quiet →
      ∃ t, exec (.cspFrameDone data) st = .next t ∧ t.pending = st.pending ∧ t.dev.boot.csp = none ∧ t.dev.o 0x1240 0x04 = 2 ∧
        t.dev.o 0x1240 0x05 = min (d.o 0x1240 0x05 + 1) (2 ^ 32 - 1) ∧
        (cspLength d.boot.cspDesc ≠ 0 → cspWrites d.boot.cspDesc = false →
          t.dev.o 0x1240 0x02 = cspBuffer (cspLength d.boot.cspDesc) data)) ∧
    (∀ data k off len, d.boot.csp = some (.windowRead k off len) → ∃ t, exec (.cspFrameDone data) st = .next t ∧
      t.pending = st.pending ∧ t.dev.boot.windowData = data.take len ∧ t.dev.objs = d.objs) ∧
    (∀ data (k : Sel) x, d.boot.csp = some (.program k) → d.oldestWrite k = some x → x.runs = true →
      ∃ t, exec (.cspFrameDone data) st = .next t ∧ t.pending = st.pending ∧ t.dev.objs = d.objs ∧
        t.dev.oldestWrite k = some { x with stage := .poll d.cycle (d.cycle + 1000 * d.winDesc k 0x09) }) ∧
    (∀ limit, limit = 1000 * d.o 0x1240 0x06 →
      (cspHonoursRdy d.boot.cspDesc = false ∨ limit = 0 ∨ d.cycle < d.boot.cspSince + limit ∨ d.boot.csp = none →
        exec .cspRdyTimeout st = .next st) ∧
      (cspHonoursRdy d.boot.cspDesc = true → limit ≠ 0 → d.boot.cspSince + limit ≤ d.cycle →
        let ends (t : State) : Prop := exec .cspRdyTimeout st = .next t ∧ t.pending = st.pending ∧
          ∃ y, t.dev.event.raised = d.event.raised ++ [y] ∧ y.src = 25
        (d.boot.csp = some .host → ∃ t, ends t ∧ t.dev.o 0x1240 0x04 = 3 ∧ d.sameBut t.dev [okey 0x1240 0x04] ∧
          (quiet → t.dev.boot.csp = none)) ∧
        (∀ k off len, d.boot.csp = some (.windowRead k off len) → ∃ t, ends t ∧ t.dev.objs = d.objs ∧
          t.dev.boot.windowData = []) ∧
        (∀ (k : Sel) x since next, d.boot.csp = some (.statusPoll k) → d.oldestWrite k = some x → x.runs = true →
          x.stage = .poll since next → ∃ t, ends t ∧ t.dev.objs = d.objs ∧
          t.dev.oldestWrite k = some { x with stage := .poll since (d.cycle + 1000 * d.winDesc k 0x09) }) ∧
        (∀ f, d.boot.csp = some f → ((∃ n, f = .bootRead n) ∨ ∃ n, f = .bootSwitch n) → d.boot.slot = 0 →
          bit (d.o 0x1210 0x02) 0 = true → ∃ t, ends t ∧ t.dev.boot.slot = 1 ∧ t.dev.o 0x1200 0x09 = 7))) ∧
    (∀ (k : Sel) (off : BitVec 28) (len : BitVec 16),
      (d.winDesc k 0x01 = 0 → exec (.windowRead k off len) st = .next st) ∧
      (d.winDesc k 0x01 ≠ 0 → idle → cspDrives (cspPiece (d.winDesc k 0x02) off.toNat len.toNat) = true →
        ∃ t, exec (.windowRead k off len) st = .next t ∧ t.pending = st.pending ∧ t.dev.objs = d.objs ∧
          t.dev.boot.csp = some (.windowRead k off.toNat len.toNat) ∧ t.dev.boot.cspSince = d.cycle)) ∧
    (∀ (k : Sel) (off : BitVec 28) (data : List Byte),
      (d.winDesc k 0x01 = 0 ∨ data = [] → exec (.windowWrite k off data) st = .next st) ∧
      (d.winDesc k 0x01 ≠ 0 → data ≠ [] → idle → cspDrives (d.winDesc k 0x03) = true →
        ∃ t, exec (.windowWrite k off data) st = .next t ∧ t.pending = st.pending ∧
          t.dev.o (0x1241 + k) 0x0B = min (d.o (0x1241 + k) 0x0B + 1) (2 ^ 32 - 1) ∧
          t.dev.boot.writes = [⟨k, off.toNat, data, .enable, true⟩] ∧ t.dev.boot.csp = some (.writeEnable k))) ∧
    (∀ (k : Sel) (status : Byte), (nextFrame d).boot.csp ≠ some (.statusPoll k) → exec (.statusPoll k status) st = .next st) ∧
    (∀ (k : Sel) x since next, d.boot.csp = none → d.bootFrame = none → d.boot.reads = [] → d.boot.writes = [x] → x.k = k →
      x.stage = .poll since next → next ≤ d.cycle → cspDrives (d.winDesc k 0x05) = true →
      (nextFrame d).boot.csp = some (.statusPoll k) ∧ (nextFrame d).boot.cspDesc = d.winDesc k 0x05) ∧
    (∀ (k : Sel) (status : Byte) x since next, d.boot.csp = some (.statusPoll k) → d.oldestWrite k = some x → x.runs = true →
      x.stage = .poll since next →
      ∀ i ∈ [Instr.statusPoll k status, .cspFrameDone [status]], ∃ t, exec i st = .next t ∧ t.pending = st.pending ∧
        t.dev.objs = d.objs ∧
        (status.toNat &&& d.winDesc k 0x06 ≠ d.winDesc k 0x07 →
          t.dev.oldestWrite k = some { x with stage := .poll since (d.cycle + 1000 * d.winDesc k 0x09) }) ∧
        (status.toNat &&& d.winDesc k 0x06 = d.winDesc k 0x07 → d.boot.writes = [x] → x.data.length ≤ d.pieceLen x →
          t.dev.boot.writes = [])) ∧
    (∀ (k : Sel) x since next limit, d.oldestWrite k = some x → x.stage = .poll since next → limit = 1000 * d.winDesc k 0x0A →
      (limit = 0 ∨ d.cycle < since + limit ∨ d.boot.csp = some (.statusPoll k) → exec (.writeTimeout k) st = .next st) ∧
      (limit ≠ 0 → since + limit ≤ d.cycle → d.boot.csp ≠ some (.statusPoll k) → ∃ t y, exec (.writeTimeout k) st = .next t ∧ t.pending = st.pending ∧
        t.dev.o (0x1241 + k) 0x0C = min (d.o (0x1241 + k) 0x0C + 1) (2 ^ 32 - 1) ∧
        t.dev.event.raised = d.event.raised ++ [y] ∧ y.src = 25 ∧ (d.boot.writes = [x] → t.dev.boot.writes = []))) ∧
    (∀ (f : SspFrame) (i : Instr) (op : Nat), (op, i) ∈ ([(1, .sspRead f), (2, .sspWrite f), (3, .sspRangeRead f),
        (4, .sspRangeWrite f), (5, .sspStatus f)] : List (Nat × Instr)) →
      ∀ (e : Device) (n : Nat), e = d.sspSelected f.clk → n = f.len.toNat →
      let discarded (t : Device) (cause : Nat) : Prop := t.o 0x1250 0x02 = min (d.o 0x1250 0x02 + 1) (2 ^ 32 - 1) ∧
        t.o 0x1250 0x03 = cause ∧ ∃ y, t.event.raised = d.event.raised ++ [y] ∧ y.src = 26
      let refused (cause : Nat) : Prop := ∃ t, exec i st = .next t ∧ t.pending = st.pending ∧ discarded t.dev cause ∧
        t.dev.boot.sspOut = [0x5A, BitVec.ofNat 8 cause] ∧ d.sameBut t.dev ([0x02, 0x03, 0x04].map (okey 0x1250))
      let answered (data : List Byte) : Prop := ∃ t, exec i st = .next t ∧ t.pending = st.pending ∧
        t.dev.boot.sspOut = 0xA5 :: data ++ [BitVec.ofNat 8 (crc8 data)] ∧
        t.dev.o 0x1250 0x01 = min (d.o 0x1250 0x01 + 1) (2 ^ 32 - 1) ∧ d.sameBut t.dev ([0x01, 0x04].map (okey 0x1250))
      (d.o 0x1250 0x05 = 0 → exec i st = .next st) ∧
      (d.o 0x1250 0x05 ≠ 0 → ∀ r, sspHeaderError op f = some r → refused r) ∧
      (d.o 0x1250 0x05 ≠ 0 → sspHeaderError op f = none →
        (op = 1 ∨ (op = 3 ∧ f.last = f.sub ∧ indexDefined f.ix.toNat = true ∧ objKind f.ix.toNat f.sub.toNat ≠ .undefined) →
          e.readKind .ssp f.ix.toNat f.sub.toNat = none →
          answered (fitBytes n (leBytes (objSize f.ix.toNat f.sub.toNat) (e.readValue .ssp f.ix.toNat f.sub.toNat)))) ∧
        (op = 1 → ∀ k, e.readKind .ssp f.ix.toNat f.sub.toNat = some k → ∃ t, exec i st = .next t ∧ t.pending = st.pending ∧
          d.violated t.dev .ssp f.ix.toNat f.sub.toNat k ∧ t.dev.boot.sspOut = 0xA5 ::
            fitBytes n (List.replicate (objSize f.ix.toNat f.sub.toNat) 0) ++
            [BitVec.ofNat 8 (crc8 (fitBytes n (List.replicate (objSize f.ix.toNat f.sub.toNat) 0)))]) ∧
        (op = 5 → answered ([BitVec.ofNat 8 (d.o 0x1200 0x01), BitVec.ofNat 8 (d.o 0x1100 0x05), BitVec.ofNat 8 (d.role .ssp),
          if d.event.faultLatch then 1 else 0] ++ leBytes 2 (d.o 0x1250 0x02) ++ [0, 0])) ∧
        (op = 3 → f.last < f.sub → refused 3) ∧
        (op = 2 ∨ op = 4 →
          (f.data.length < n → ∃ t, exec i st = .next t ∧ t.pending = st.pending ∧ discarded t.dev 5 ∧ t.dev.boot.sspOut = []) ∧
          (n ≤ f.data.length → crc8 (f.data.take n) ≠ f.dcrc.toNat → refused 2) ∧
          (n ≤ f.data.length → crc8 (f.data.take n) = f.dcrc.toNat →
            (op = 4 → f.last < f.sub → refused 3) ∧
            (op = 2 → e.accessKind .ssp true f.ix.toNat f.sub.toNat = none → n ≠ objSize f.ix.toNat f.sub.toNat → refused 3) ∧
            (op = 2 → ∀ k, e.accessKind .ssp true f.ix.toNat f.sub.toNat = some k → ∃ t, exec i st = .next t ∧
              t.pending = st.pending ∧ d.violated t.dev .ssp f.ix.toNat f.sub.toNat k ∧ t.dev.boot.sspOut = [0xA5]) ∧
            (∀ (s : Site), f.ix.toNat = siteIx s → f.sub.toNat = 0x09 → (op = 4 → f.last = f.sub) → n = objSize (siteIx s) 0x09 →
              d.accepts .ssp (siteIx s) 0x09 (ofLE (f.data.take n)) false → ∃ t, exec i st = .next t ∧ t.pending = st.pending ∧
              t.dev.o (siteIx s) 0x09 = ofLE (f.data.take n) ∧ t.dev.boot.sspOut = [0xA5] ∧
              d.sameBut t.dev [okey (siteIx s) 0x09, okey 0x1250 0x01, okey 0x1250 0x04]))))) ∧
    (∀ (cut : SspCut), d.o 0x1250 0x05 = 0 → exec (.sspDiscard cut) st = .next st) ∧
    (d.o 0x1250 0x05 ≠ 0 →
      (∀ clk, ∀ cut ∈ ([.insideByte clk, .short clk] : List SspCut), ∃ t y, exec (.sspDiscard cut) st = .next t ∧
        t.pending = st.pending ∧ t.dev.o 0x1250 0x02 = min (d.o 0x1250 0x02 + 1) (2 ^ 32 - 1) ∧ t.dev.o 0x1250 0x03 = 5 ∧
        t.dev.o 0x1250 0x04 = (if clk then 3 else 0) ∧ t.dev.boot.sspOut = [] ∧ t.dev.event.raised = d.event.raised ++ [y] ∧
        y.src = 26) ∧
      ∀ (op : Byte) (f : SspFrame), op = 0 ∨ 6 ≤ op.toNat → ∀ cause,
        cause = (if crc8 (sspHeader op.toNat f) = f.hcrc.toNat then 4 else 1) →
        ∃ t y, exec (.sspDiscard (.opcode op f)) st = .next t ∧ t.pending = st.pending ∧
          t.dev.o 0x1250 0x02 = min (d.o 0x1250 0x02 + 1) (2 ^ 32 - 1) ∧ t.dev.o 0x1250 0x03 = cause ∧
          t.dev.boot.sspOut = [0x5A, BitVec.ofNat 8 cause] ∧ t.dev.event.raised = d.event.raised ++ [y] ∧ y.src = 26)

/-- A request makes the tiles of its mask due for its kinds with cause HOST, and a tile that runs no calibration WAITING; without
a kind it does nothing. A calibration that may not start leaves all as it is; one that may takes the pending kinds and
causes, clears them, and is in run 1, with EV056. Units that finish move the position and the percent. At the start of its
LEVEL part a run shows its references and judges them by their limits; no LEVEL run ends before. A LEVEL run switches
measurement paths of DPS channels. The end of run 1 keeps what it found and starts run 2; the end of run 2 is APPLYING, and
the application that follows in the next cycle shows the outcome by comparing both runs unit by unit, the rejected units and
100 percent, takes the mean of the two runs as the coefficients of each accepted unit, with the deskews of the accepted
channels, and changes those of no other, and raises EV057 or EV058 (the mean is truncated: log entry 43). With no calibration
that runs, the end of a run is nothing. An elapsed retry interval makes the tile due again with cause RETRY; without one
nothing happens. -/
def Obligations.CalibrationsRun : Prop :=
  ∀ (st : State), st.running →
    let d := st.dev
    (∀ (p : Port) (v : BitVec 16) (kinds : Nat) (ts : List Nat), d.accepts p 0x1400 0x05 v.toNat false →
      kinds = bitf v.toNat 8 2 → ts = (List.range 8).filter (fun k => bit v.toNat k) →
      (kinds = 0 → exec (.calibrationRequest p v) st = .next st) ∧
      (kinds ≠ 0 → ∃ t, exec (.calibrationRequest p v) st = .next t ∧ t.pending = st.pending ∧
        d.OnlySettled t.dev (ts.flatMap fun k => [okey (0x1410 + k) 0x01, okey (0x1410 + k) 0x02, okey (0x1410 + k) 0x03]) ts ∧
        ∀ k ∈ ts, t.dev.o (0x1410 + k) 0x02 = (d.o (0x1410 + k) 0x02 ||| kinds) ∧
          t.dev.o (0x1410 + k) 0x03 = (d.o (0x1410 + k) 0x03 ||| 2) ∧
          t.dev.calState k = (if d.calState k < 2 then 1 else d.calState k))) ∧
    (∀ (k : Tile), d.calMayStart k = false → exec (.calibrationStart k) st = .next st) ∧
    (∀ (k : Tile), d.calMayStart k = true → (∀ n ∈ tileChans k, d.tmuBusy n = false) →
      ∃ t y, exec (.calibrationStart k) st = .next t ∧ t.pending = st.pending ∧ y.src = 56 ∧
        Device.OnlySettled { d with event := { d.event with raised := d.event.raised ++ [y], snap := t.dev.event.snap },
                                    power := { d.power with cal := t.dev.power.cal } } t.dev
          ([0x01, 0x02, 0x03, 0x09, 0x0A].map (okey (0x1410 + k))) [k.val] ∧
        t.dev.calState k = 2 ∧ t.dev.o (0x1410 + k) 0x02 = 0 ∧ t.dev.o (0x1410 + k) 0x03 = 0 ∧ t.dev.o (0x1410 + k) 0x09 = 0 ∧
        t.dev.o (0x1410 + k) 0x0A = 0 ∧ (∀ j, j ≠ k.val → t.dev.calOf j = d.calOf j) ∧
        t.dev.calOf k = { d.calOf k with kinds := d.o (0x1410 + k) 0x02, causes := d.o (0x1410 + k) 0x03, began := d.cycle,
                                         temperature := d.tileHottest k, refBad := false, checked := none, run1 := [], run2 := [],
                                         path := [], pathUsed := [], internal := d.o (0x1410 + k) 0x10 }) ∧
    (∀ (k : Tile) (m : BitVec 8) (n pos : Nat), n = (calUnits (d.calOf k).kinds).length →
      pos = (if d.calState k = 3 then n else 0) + m.toNat →
      (d.calState k < 2 ∨ d.calState k = 4 ∨ d.runUnits k < m.toNat ∨ pos < d.o (0x1410 + k) 0x0A →
        exec (.calibrationRunDone k (.finished m)) st = .next st) ∧
      (d.calState k = 2 ∨ d.calState k = 3 → m.toNat ≤ d.runUnits k → d.o (0x1410 + k) 0x0A ≤ pos →
        ∃ t, exec (.calibrationRunDone k (.finished m)) st = .next t ∧ t.pending = st.pending ∧
          d.OnlyKeys t.dev [okey (0x1410 + k) 0x09, okey (0x1410 + k) 0x0A] ∧ t.dev.o (0x1410 + k) 0x0A = pos ∧
          t.dev.o (0x1410 + k) 0x09 = (if n = 0 then 0 else min 99 (100 * pos / (2 * n))))) ∧
    (∀ (k : Tile) (refv zcal : BitVec 32) (good : Bool), good = (decide (247500 ≤ refv.toInt) && decide (refv.toInt ≤ 252500) &&
        decide (990000 ≤ zcal.toNat) && decide (zcal.toNat ≤ 1010000)) →
      (d.levelRun k = false ∨ d.calState k = 4 ∨ (d.calOf k).checked ≠ none →
        exec (.calibrationRunDone k (.references refv zcal)) st = .next st) ∧
      (d.levelRun k = true → d.calState k ≠ 4 → (d.calOf k).checked = none →
        ∃ t, exec (.calibrationRunDone k (.references refv zcal)) st = .next t ∧ t.pending = st.pending ∧
          t.dev = { d with objs := t.dev.objs, power := { d.power with cal := t.dev.power.cal } } ∧
          d.sameBut t.dev [okey 0x1400 0x07, okey 0x1400 0x08] ∧ t.dev.o 0x1400 0x07 = refv.toNat ∧
          t.dev.o 0x1400 0x08 = zcal.toNat ∧
          t.dev.calOf k = { d.calOf k with refBad := (d.calOf k).refBad || !good, checked := some good })) ∧
    (∀ (k : Tile) (mask : BitVec 8),
      (d.levelRun k = false → exec (.calibrationRunDone k (.path mask)) st = .next st) ∧
      (d.levelRun k = true → ∃ t, exec (.calibrationRunDone k (.path mask)) st = .next t ∧ t.pending = st.pending ∧
        t.dev = { d with power := { d.power with cal := t.dev.power.cal } } ∧
        (∀ i < 8, bit mask.toNat i = false → t.dev.pathSwitched (8 * k + i) = false) ∧
        (∀ i < 8, bit mask.toNat i = true → (d.calOf k).path = [] → (d.calOf k).pathUsed = [] →
          t.dev.pathSwitched (8 * k + i) = true))) ∧
    (∀ (k : Tile) (m : List CalUnit) (n : Nat), n = (calUnits (d.calOf k).kinds).length →
      (bit (d.calOf k).kinds 1 = true ∧ (d.calOf k).checked = none ∨ (d.calState k ≠ 2 ∧ d.calState k ≠ 3) →
        exec (.calibrationRunDone k (.run m)) st = .next st) ∧
      (bit (d.calOf k).kinds 1 = false ∨ (d.calOf k).checked ≠ none →
        (d.calState k = 2 → ∃ t, exec (.calibrationRunDone k (.run m)) st = .next t ∧ t.pending = st.pending ∧
          t.dev = { d with objs := t.dev.objs, power := { d.power with cal := t.dev.power.cal } } ∧
          d.sameBut t.dev ([0x01, 0x09, 0x0A].map (okey (0x1410 + k))) ∧ t.dev.calState k = 3 ∧
          t.dev.o (0x1410 + k) 0x0A = n ∧ t.dev.o (0x1410 + k) 0x09 = (if n = 0 then 0 else 50) ∧
          t.dev.calOf k = { d.calOf k with
            internal := d.o (0x1410 + k) 0x10, checked := none, path := [], pathUsed := [], run1 := m }) ∧
        (d.calState k = 3 → ∃ t, exec (.calibrationRunDone k (.run m)) st = .next t ∧ t.pending = st.pending ∧
          t.dev = { d with objs := t.dev.objs, power := { d.power with cal := t.dev.power.cal } } ∧
          d.sameBut t.dev [okey (0x1410 + k) 0x01] ∧ t.dev.calState k = 4 ∧
          t.dev.calOf k = { d.calOf k with run2 := m, path := [], pathUsed := [] }))) ∧
    (∀ (k : Tile), ∀ l m refBad n rejected e, l = (d.calOf k).run1 → m = (d.calOf k).run2 → refBad = (d.calOf k).refBad →
      n = (calUnits (d.calOf k).kinds).length →
      rejected = ((calUnits (d.calOf k).kinds).filter (unitRejected l m refBad)).length → e = finishCal k d →
      d.calState k = 4 →
      e.calState k ≤ 1 ∧ e.o (0x1410 + k) 0x0A = 2 * n ∧ e.o (0x1410 + k) 0x09 = 100 ∧
        e.o (0x1410 + k) 0x0B = (if rejected = 0 then 1 else if rejected < n then 2 else 3) ∧
        e.o (0x1410 + k) 0x0E = rejected ∧ (∃ y ∈ e.event.raised, y.src = (if rejected = 0 then 57 else 58)) ∧
        ∀ i < 137,
          (i ∈ calUnits (d.calOf k).kinds → unitRejected l m refBad i = false → ∃ a b, unitOf l i = some a ∧ unitOf m i = some b ∧
            e.coefsOf k i = some (meanCoefs a b) ∧ (1 ≤ i → i ≤ 64 →
              e.o (chanIx (64 * k + (i - 1))) 0x19 = ux 32 (tdiv (a.drive + b.drive) 2) ∧
              e.o (chanIx (64 * k + (i - 1))) 0x1A = ux 32 (tdiv (a.compare + b.compare) 2))) ∧
          (i ∉ calUnits (d.calOf k).kinds ∨ unitRejected l m refBad i = true → e.coefsOf k i = d.coefsOf k i ∧ (1 ≤ i → i ≤ 64 →
              e.o (chanIx (64 * k + (i - 1))) 0x19 = d.o (chanIx (64 * k + (i - 1))) 0x19 ∧
              e.o (chanIx (64 * k + (i - 1))) 0x1A = d.o (chanIx (64 * k + (i - 1))) 0x1A))) ∧
    (∀ (k : Tile), (d.calOf k).retryAt = none → exec (.retryIntervalExpiry k) st = .next st) ∧
    (∀ (k : Tile) c, (d.calOf k).retryAt = some c → d.cycle < c → exec (.retryIntervalExpiry k) st = .next st) ∧
    (∀ (k : Tile) c, (d.calOf k).retryAt = some c → c ≤ d.cycle →
      ∃ t, exec (.retryIntervalExpiry k) st = .next t ∧ t.pending = st.pending ∧
        Device.OnlySettled { d with power := { d.power with cal := t.dev.power.cal } } t.dev
          ([0x01, 0x02, 0x03].map (okey (0x1410 + k))) [k.val] ∧
        t.dev.o (0x1410 + k) 0x02 = (d.o (0x1410 + k) 0x02 ||| (d.calOf k).retryKinds) ∧
        t.dev.o (0x1410 + k) 0x03 = (d.o (0x1410 + k) 0x03 ||| 16) ∧
        t.dev.calOf k = { d.calOf k with retryAt := none } ∧ (∀ j, j ≠ k.val → t.dev.calOf j = d.calOf j) ∧
        (d.o 0x1400 0x01 = 1 → (d.calOf k).suspended = false → d.calState k < 2 → t.dev.calState k = 1))

/-- A move that completes (none into DORMANT while a grant is held on the tile) shows its state, and raises the tile's TILE-
POWER; at SLEEP or deeper every channel of the tile is at DZ (log entry 59). 10 ms without an access, of which none waits,
end a hold out of DORMANT. A conversion of eight good sensors shows their readings, the tile's hottest, its levels and the
temperature guarantee, which has no hysteresis (log entry 53); a self-test that fails shows the FAULT code (log entry 63). A
prediction is recorded; one of 1 ms or less in an orderly stop is a hard trip, and so is an analog trip: THERMTRIP_N low,
every channel driver and termination off, SHUTDOWN (log entry 64). The end of an orderly stop, with every output
disconnected, is SHUTDOWN. A refused re-arm shows its reason alone; an accepted one starts boot stage 2 with every level
asserted and the guarantees of temperature and supplies as they stood. A rail outside its range is shown and counted, and
clears the guarantee of the supplies, which returns with the last rail (log entry 66). -/
def Obligations.PowerAndHeat : Prop :=
  ∀ (st : State), st.running →
    let d := st.dev
    let tripped (e : Device) : Prop := e.o 0x1300 0x12 = 2 ∧ e.power.thermtrip = true ∧
      ∀ n, n < 512 → e.pinOf n = { Pin.init with drive := .isolated } ∧ e.act (chanIx n) 0x02 = 0
    (∀ (k : Tile) (m : Nat), m = Cells.read 0 k d.power.moving →
      (m = 0 ∨ d.o 0x1300 0x12 = 2 ∨ (d.powerState k = 5 ∧ d.retraining k = true) ∨ (m = 6 ∧ d.tileGranted k = true) →
        exec (.powerStateChange k) st = .next st) ∧
      (m ≠ 0 → d.o 0x1300 0x12 ≠ 2 → ¬(d.powerState k = 5 ∧ d.retraining k = true) → ¬(m = 6 ∧ d.tileGranted k = true) →
        d.sites.woken = [] →
        ∃ t y, exec (.powerStateChange k) st = .next t ∧ t.pending = st.pending ∧ t.dev.powerState k = m - 1 ∧
          y ∈ t.dev.event.raised ∧ y.src = 8 + k ∧
          (m = 1 → t.dev.o (0x1320 + k) 0x07 = (d.cycle - Cells.read 0 k d.power.moveSince) % 2 ^ 32) ∧
          (d.powerState k < 4 → 5 ≤ m → ∀ n ∈ tileChans k, t.dev.pinOf n = Pin.init) ∧
          (d.powerState k < 3 → m ≤ 3 → t.dev.o (0x1320 + k) 0x06 = min (d.o (0x1320 + k) 0x06 + 1) (2 ^ 32 - 1) ∧
            Device.OnlySettled { d with event := { d.event with raised := d.event.raised ++ [y], snap := t.dev.event.snap },
                                        power := { d.power with moving := t.dev.power.moving } } t.dev
              ([0x02, 0x06, 0x07, 0x08].map (okey (0x1320 + k))) [k.val]))) ∧
    (∀ (k : Tile) (last : Nat), last = Cells.read 0 k d.power.lastAccess →
      (last = 0 ∨ d.cycle < last - 1 + 10000000 ∨ d.accessWaits k = true → exec (.dormantReentry k) st = .next st) ∧
      (last ≠ 0 → last - 1 + 10000000 ≤ d.cycle → d.accessWaits k = false → ∃ t, exec (.dormantReentry k) st = .next t ∧ t.pending = st.pending ∧
        Device.OnlySettled { d with power := { d.power with lastAccess := t.dev.power.lastAccess } } t.dev [] [k.val] ∧
        t.dev.dormantHeld k = false ∧ ∀ j, j ≠ k.val → t.dev.dormantHeld j = d.dormantHeld j)) ∧
    (∀ (k : Tile) (l : List Conversion) (off : List Int), d.sensorsTrimmed = false →
      exec (.sensorConversion k l) st = .next st ∧ exec (.sensorSelfTest k off) st = .next st) ∧
    (∀ (k : Tile) (l : List Conversion), d.sensorsTrimmed = true → d.boot.released = 1 → l.length = 8 → d.o (0x1310 + k) 0x0C = 0 →
      d.act 0x1300 0x07 = 0 → (∀ c ∈ l, -640 ≤ c.reading ∧ c.reading ≤ 2240 ∧ c.reading < 16 * (d.act 0x1300 0x03 : Int)) →
      (∀ i c, l[i]? = some c → c.same = true → d.sameCount k i < 63) →
      ∃ t, exec (.sensorConversion k l) st = .next t ∧ t.pending = st.pending ∧
        (∀ i c, l[i]? = some c → t.dev.reading k i = c.reading ∧
          t.dev.sameCount k i = (if c.same then d.sameCount k i + 1 else 0)) ∧
        (∃ c ∈ l, t.dev.tileHottest k = c.reading) ∧ (∀ c ∈ l, c.reading ≤ t.dev.tileHottest k) ∧
        (∀ j, j < 3 → bit (t.dev.o (0x1310 + k) 0x0B) j =
          (decide (16 * (d.act 0x1300 (1 + j) : Int) ≤ t.dev.tileHottest k) || (bit (d.o (0x1310 + k) 0x0B) j &&
            decide (16 * (d.act 0x1300 (1 + j) : Int) - 16 * (d.act 0x1300 (4 + j) : Int) ≤ t.dev.tileHottest k)))) ∧
        bit (t.dev.o 0x1780 0x01) 0 = (bit (d.o 0x1780 0x01) 0 || (List.range 8).all fun j => j == k.val ||
          decide (d.tileHottest j < 16 * (d.act 0x1300 0x03 : Int))) ∧
        t.dev.pins = d.pins ∧ t.dev.sites = d.sites ∧ t.dev.dps = d.dps ∧ t.dev.heads = d.heads) ∧
    (∀ (k : Tile) (off : List Int), d.sensorsTrimmed = true → d.boot.released = 1 → d.o 0x1300 0x12 ≠ 0 → d.act 0x1300 0x07 = 0 →
      ∃ t, exec (.sensorSelfTest k off) st = .next t ∧ t.pending = st.pending ∧ ∀ i, i < 8 → ∀ x, x = off.getD i 0 →
        (x < -48 ∨ 48 < x → d.sensorFault k i = false → t.dev.reading k i = 2400 ∧ t.dev.sensorFault k i = true ∧
          t.dev.o (0x1310 + k) 0x0D = 3) ∧
        (-48 ≤ x → x ≤ 48 → t.dev.reading k i = d.reading k i ∧ t.dev.sensorFault k i = d.sensorFault k i)) ∧
    (d.hottestValid = none → ∃ t, exec .temperaturePrediction st = .next t ∧ t.pending = st.pending ∧
      d.OnlyKeys t.dev [okey 0x1300 0x17] ∧ t.dev.o 0x1300 0x17 = 2 ^ 32 - 1) ∧
    (∀ v p, d.hottestValid = some v → p = predicted v (earlier d.cycle d.power.history) →
      (d.o 0x1300 0x12 ≠ 1 ∨ 1000 < p → ∃ t, exec .temperaturePrediction st = .next t ∧ t.pending = st.pending ∧
        t.dev = { d with objs := t.dev.objs, power := { d.power with history := ((d.cycle, v) :: d.power.history).take 12 } } ∧
        d.sameBut t.dev [okey 0x1300 0x17] ∧ t.dev.o 0x1300 0x17 = p) ∧
      (d.o 0x1300 0x12 = 1 → p ≤ 1000 → ∃ t, exec .temperaturePrediction st = .next t ∧ t.pending = st.pending ∧ tripped t.dev)) ∧
    (∀ (k : Tile), ∃ t, exec (.analogTrip k) st = .next t ∧ t.pending = st.pending ∧
      (d.o 0x1300 0x12 ≠ 2 → tripped t.dev) ∧
      (d.o 0x1300 0x12 = 2 → t.dev = { d with objs := t.dev.objs, power := { d.power with thermtrip := true } } ∧
        d.sameBut t.dev [okey (0x1310 + k) 0x0F] ∧ t.dev.o (0x1310 + k) 0x0F = 1)) ∧
    (∀ done, done = (d.o 0x1300 0x12 = 1 ∧ d.dps.rank = none ∧ (∀ k, k < 64 → d.dpsConnected k = false) ∧
        ∀ s, s < 128 → (d.seqOf s).phase = .off) →
      (¬done → exec .shutdownComplete st = .next st) ∧
      (done → ∃ t, exec .shutdownComplete st = .next t ∧ t.pending = st.pending ∧ t.dev.o 0x1300 0x12 = 2 ∧
        t.dev.pins = d.pins ∧ t.dev.sites = d.sites ∧ t.dev.dps = d.dps)) ∧
    (∀ (p : Port) (v : Byte) (failed : BitVec 64) (r : Nat), d.accepts p 0x1300 0x14 v.toNat false →
      r = reArmResult failed.toNat d →
      (r ≠ 1 → ∃ t, exec (.thermalReArm p v failed) st = .next t ∧ t.pending = st.pending ∧
        d.OnlyKeys t.dev [okey 0x1300 0x15] ∧ t.dev.o 0x1300 0x15 = r) ∧
      (r = 1 → ∃ t, exec (.thermalReArm p v failed) st = .next t ∧ t.pending = st.pending ∧ t.dev.o 0x1200 0x01 = 2 ∧
        t.dev.o 0x1300 0x12 = 0 ∧ t.dev.o 0x1300 0x15 = 1 ∧ t.dev.o 0x1100 0x05 = 0 ∧ t.dev.power.thermtrip = false ∧
        t.dev.mem = MemState.init ∧ t.dev.sites = SiteState.init ∧ t.dev.pins = PinState.init ∧ t.dev.dps = DpsState.init ∧
        (∀ j, j < 8 → t.dev.o (0x1310 + j) 0x0B = 7 ∧ t.dev.o (0x1310 + j) 0x0F = 0) ∧
        (bit (t.dev.o 0x1780 0x01) 0 = bit (d.o 0x1780 0x01) 0 ∧ bit (t.dev.o 0x1780 0x01) 1 = (d.o 0x1390 0x08 == 0)) ∧
        (∀ x, keptByReArm x = false → x ∉ [okey 0x1200 0x01, okey 0x1200 0x02, okey 0x1780 0x01] → t.dev.get x = resetValue x))) ∧
    (∀ (rail : Fin 7), ∃ t, exec (.supplyOutOfRange rail) st = .next t ∧ t.pending = st.pending ∧
      t.dev = { d with objs := t.dev.objs, event := { d.event with raised := t.dev.event.raised, snap := t.dev.event.snap } } ∧
      d.sameBut t.dev [okey 0x1780 0x01, okey 0x1390 0x08, okey 0x1390 0x09] ∧
      t.dev.o 0x1390 0x08 = setBit (d.o 0x1390 0x08) rail true ∧ bit (t.dev.o 0x1780 0x01) 1 = false ∧
      (d.o 0x1390 0x08 = 0 → t.dev.o 0x1390 0x09 = min (d.o 0x1390 0x09 + 1) (2 ^ 32 - 1) ∧
        ∃ y ∈ t.dev.event.raised, y.src = 6) ∧
      (d.o 0x1390 0x08 ≠ 0 → t.dev.o 0x1390 0x09 = d.o 0x1390 0x09)) ∧
    (∀ (rail : Fin 7) (left : Nat), left = setBit (d.o 0x1390 0x08) rail false →
      ∃ t, exec (.supplyBackInRange rail) st = .next t ∧ t.pending = st.pending ∧ t.dev.o 0x1390 0x08 = left ∧
      (left ≠ 0 → d.OnlyKeys t.dev [okey 0x1390 0x08]) ∧
      (left = 0 → bit (t.dev.o 0x1780 0x01) 1 = true ∧ d.sameBut t.dev [okey 0x1780 0x01, okey 0x1390 0x08]))

/-- The host writes a latency tolerance in us for each tile to 0x1320+t.01. The tolerance allows the deepest state whose exit
latency does not exceed it: 0 ACTIVE, 1 STANDBY, 2 to 59 NAP, 60 to 1,999 DOZE, 2,000 to 119,999 SLEEP, 120,000 and above
DORMANT. The default is 0. Where no floor condition, no throttle and no memory access hold the tile up, that state is the
tile's target; under any, the target is never deeper. -/
def Obligations.ToleranceAllowsDeepestState : Prop :=
  (∀ k : Tile, resetValue (okey (0x1320 + k) 0x01) = 0) ∧
  ∀ (st : State) (p : Port) (k : Tile) (v : BitVec 32), st.running → st.dev.accepts p (0x1320 + k) 0x01 v.toNat false →
    ∀ allowed, allowed = (if v.toNat = 0 then 0 else if v.toNat = 1 then 1 else if v.toNat ≤ 59 then 2 else if v.toNat ≤ 1999 then 3
      else if v.toNat ≤ 119999 then 4 else 5) →
    ∃ t, exec (.latencyTolerance p k v) st = .next t ∧ t.pending = st.pending ∧ t.dev.o (0x1320 + k) 0x01 = v.toNat ∧
      (st.dev.throttled k = false → t.dev.o (0x1320 + k) 0x03 ≤ allowed) ∧
      (st.dev.floorConditions k = 0 → st.dev.throttled k = false → st.dev.dormantHeld k = false →
        t.dev.o (0x1320 + k) 0x03 = allowed) ∧
      st.dev.OnlySettled t.dev [okey (0x1320 + k) 0x01] [k.val]

/-- For every command and state, the step with the command in front is exec of it on the state with the rest of the queue. With
nothing waiting the block idles for one cycle of the 1.0 GHz clock, or stays as it is while PORST_N is low; that a step with
nothing waiting is one cycle is the model's choice (log entry 6). -/
def Obligations.StepRunsTheFront : Prop :=
  ∀ (s : State) (c : Instr) (rest : List Instr),
    step { s with pending := c :: rest } = exec c { s with pending := rest } ∧
    ∃ t, step { s with pending := [] } = .next t ∧ t.pending = [] ∧
      (s.running → t.dev.objs = s.dev.tick.objs ∧ t.dev.cycle = s.dev.tick.cycle ∧ t.running) ∧
      (s.dev.boot.held = true → t.dev = s.dev)

/-- After reset no command waits, every object reads its reset value, active and pending copies with it; boot is in stage 1 and
not released, REFCLK is not yet present, the ring state is DOWN, the SSP has role OPERATOR, and the register file, SRAM and
SDRAM are in canonical form. The values that objects take where the spec states none are the model's choice (log entry 1). -/
def Obligations.ResetLeavesDefaults : Prop :=
  State.reset.pending = [] ∧ (∀ k, State.reset.dev.get k = resetValue k) ∧ State.reset.running ∧ State.reset.inReset ∧
    State.reset.dev.o 0x1200 0x01 = 1 ∧ State.reset.dev.boot.released = 0 ∧ State.reset.dev.refclk = .absent ∧
    State.reset.dev.o 0x1100 0x05 = 0 ∧ State.reset.dev.role .ssp = 1 ∧
    State.reset.dev.objsWf = true ∧ State.reset.dev.sramWf = true ∧ State.reset.dev.sdramWf = true ∧
    State.reset.dev.event.raised = [] ∧ State.reset.dev.pins = PinState.init ∧ State.reset.dev.sites = SiteState.init

/-- From every state a step answers a next state, never a fault or a refusal; the queue loses its front. A part held in reset is
as reset leaves it, and every step keeps that. While PORST_N is low only PORST_N, its assertion and a reset of VAON change
the block, and whether PORST_N is low only the two commands of the pin change. -/
def Obligations.EveryStepGoesOn : Prop :=
  ∀ (s : State), ∃ t, step s = .next t ∧ t.pending = s.pending.tail ∧ (s.inReset → t.inReset) ∧
    (s.pending.head? = some .porstN → t.dev.boot.held = false) ∧
    (s.pending.head? = some .porstNAssertion → t.dev.boot.held = true) ∧
    (s.pending.head? ≠ some .porstN → s.pending.head? ≠ some .porstNAssertion →
      t.dev.boot.held = s.dev.boot.held ∧
      (s.dev.boot.held = true → s.pending.head? ≠ some .vaonReset → t.dev = s.dev))

/-- The register file, cluster SRAM and SDRAM are held as lists in a canonical form: keys rising, and no entry that equals what
an unlisted key reads as, so that equal stores are equal data. Reset meets the three forms, and from every state that meets
them every step that answers a next state gives one that meets them. What an unlisted byte of SDRAM reads as is the model's
choice (log entry 3). -/
def Obligations.StoresStayCanonical : Prop :=
  (State.reset.dev.objsWf = true ∧ State.reset.dev.sramWf = true ∧ State.reset.dev.sdramWf = true) ∧
  ∀ (s t : State), s.dev.objsWf = true → s.dev.sramWf = true → s.dev.sdramWf = true → step s = .next t →
    t.dev.objsWf = true ∧ t.dev.sramWf = true ∧ t.dev.sdramWf = true

/-- Reading an instruction word gives back the command it was written from, with every field at every value that the encoding
admits: the mode, result, SSM, predicate and reserved bits, A, B, N, T and X; JMP, SIGNAL and CAPT go by their form field, a
word with an opcode that the table does not list to the illegal opcode. Writing the command that a word spells gives back the
word. Which row a word of JMP, SIGNAL or CAPT with an unlisted form goes to is the model's choice; it is the first row of the
opcode, which halts the site. -/
def Obligations.InstructionWordsRoundTrip : Prop :=
  ∀ (s : Site) (w : VWord), w.poisoned = false →
    commandOfWord s (wordOf 0x01 w) = .vec s w ∧ commandOfWord s (wordOf 0x02 w) = .rpt s w ∧
    commandOfWord s (wordOf 0x03 w) = .loop s w ∧ commandOfWord s (wordOf 0x04 w) = .endl s w ∧
    commandOfWord s (wordOf 0x05 w) = .call s w ∧ commandOfWord s (wordOf 0x06 w) = .ret s w ∧
    (w.a ≠ 1 → w.a ≠ 2 → commandOfWord s (wordOf 0x07 w) = .jmp s w) ∧
    (w.a = 1 → commandOfWord s (wordOf 0x07 w) = .jmpArm s w) ∧ (w.a = 2 → commandOfWord s (wordOf 0x07 w) = .jmpDisarm s w) ∧
    commandOfWord s (wordOf 0x08 w) = .bif s w ∧ commandOfWord s (wordOf 0x09 w) = .matchBlock s w ∧
    commandOfWord s (wordOf 0x0A w) = .tset s w ∧ commandOfWord s (wordOf 0x0B w) = .lset s w ∧
    commandOfWord s (wordOf 0x0C w) = .wait s w ∧
    (w.b ≠ 1 → w.b ≠ 2 → commandOfWord s (wordOf 0x0D w) = .signalPulse s w) ∧
    (w.b = 1 → commandOfWord s (wordOf 0x0D w) = .signalSet s w) ∧ (w.b = 2 → commandOfWord s (wordOf 0x0D w) = .signalClear s w) ∧
    (w.a.getLsbD 0 = true → commandOfWord s (wordOf 0x0E w) = .captArm s w) ∧
    (w.a.getLsbD 0 = false → w.a.getLsbD 1 = true → commandOfWord s (wordOf 0x0E w) = .captAcq s w) ∧
    (w.a.getLsbD 0 = false → w.a.getLsbD 1 = false → w.a.getLsbD 2 = true → commandOfWord s (wordOf 0x0E w) = .captFwclr s w) ∧
    (w.a.getLsbD 0 = false → w.a.getLsbD 1 = false → w.a.getLsbD 2 = false → commandOfWord s (wordOf 0x0E w) = .captLog s w) ∧
    commandOfWord s (wordOf 0x0F w) = .halt s w ∧
    (∀ opc : BitVec 8, opc.toNat = 0 ∨ 15 < opc.toNat → commandOfWord s (wordOf opc w) = .illegalOpcode s opc w) ∧
    ∀ v : BitVec 128, encodeWord (commandOfWord s v) = some v
end

