-- ==== Sys2Proof/Laws/Cells.lean ====
section
/-!
SUPPORT. The laws of sparse data: what a write leaves to be read at its own number and at every other, and that a write
keeps the canonical form.
-/
namespace Sys2Proof.Machine.Cells

variable {α : Type}

theorem find_drop_same (k : Nat) (m : List (Nat × α)) : find k (drop k m) = none := by
  induction m with
  | nil => rfl
  | cons p m ih =>
    obtain ⟨j, v⟩ := p
    by_cases h : j = k
    · simpa [drop, h] using ih
    · simpa [drop, find, h] using ih

theorem find_drop_other {k j : Nat} (h : j ≠ k) (m : List (Nat × α)) : find j (drop k m) = find j m := by
  induction m with
  | nil => rfl
  | cons p m ih =>
    obtain ⟨i, v⟩ := p
    by_cases hi : i = k
    · have hj : ¬ k = j := fun e => h e.symm
      simpa [drop, find, hi, hj] using ih
    · simp [drop, find, hi, ih]

theorem find_place_same {k : Nat} {m : List (Nat × α)} (h : find k m = none) (v : α) : find k (place k v m) = some v := by
  induction m with
  | nil => simp [place, find]
  | cons p m ih =>
    obtain ⟨j, w⟩ := p
    have hj : ¬ j = k := by
      intro e
      simp [find, e] at h
    have hm : find k m = none := by simpa [find, hj] using h
    by_cases hk : k < j
    · simp [place, hk, find]
    · simpa [place, hk, find, hj] using ih hm

theorem find_place_other {k j : Nat} (h : j ≠ k) (v : α) (m : List (Nat × α)) : find j (place k v m) = find j m := by
  have hk : ¬ k = j := fun e => h e.symm
  induction m with
  | nil => simp [place, find, hk]
  | cons p m ih =>
    obtain ⟨i, w⟩ := p
    by_cases hi : k < i
    · simp [place, hi, find, hk]
    · simp [place, hi, find, ih]

/-- A write is read back. -/
@[simp] theorem read_write_same [DecidableEq α] (d : α) (k : Nat) (v : α) (m : List (Nat × α)) :
    read d k (write d k v m) = v := by
  unfold read write
  split
  · next h => rw [find_drop_same]; exact h.symm
  · rw [find_place_same (find_drop_same k m)]; rfl

/-- A write leaves every other number as it was, whatever an unlisted number there reads as. -/
theorem read_write_other [DecidableEq α] {j k : Nat} (h : j ≠ k) (d e : α) (v : α) (m : List (Nat × α)) :
    read e j (write d k v m) = read e j m := by
  unfold read write
  split
  · rw [find_drop_other h]
  · rw [find_place_other h, find_drop_other h]

/-! ## The canonical form -/

/-- Every number listed lies above `k`. -/
def above (k : Nat) (m : List (Nat × α)) : Prop := ∀ p ∈ m, k < p.1

theorem rising_cons {k : Nat} {v : α} {m : List (Nat × α)} :
    rising ((k, v) :: m) = true ↔ above k m ∧ rising m = true := by
  induction m generalizing k v with
  | nil => simp [rising, above]
  | cons p m ih =>
    obtain ⟨j, w⟩ := p
    simp only [rising, Bool.and_eq_true, decide_eq_true_eq]
    constructor
    · rintro ⟨hkj, hr⟩
      refine ⟨?_, hr⟩
      intro q hq
      rcases List.mem_cons.1 hq with rfl | hq
      · exact hkj
      · exact Nat.lt_trans hkj ((ih.1 hr).1 q hq)
    · rintro ⟨ha, hr⟩
      exact ⟨ha _ (List.mem_cons_self ..), hr⟩

theorem mem_drop {k : Nat} {m : List (Nat × α)} {p : Nat × α} (h : p ∈ drop k m) : p ∈ m ∧ p.1 ≠ k := by
  induction m with
  | nil => simp [drop] at h
  | cons q m ih =>
    obtain ⟨j, w⟩ := q
    by_cases hj : j = k
    · simp only [drop, hj, if_true] at h
      exact ⟨List.mem_cons_of_mem _ (ih h).1, (ih h).2⟩
    · simp only [drop, hj, if_false] at h
      rcases List.mem_cons.1 h with rfl | h
      · exact ⟨List.mem_cons_self .., hj⟩
      · exact ⟨List.mem_cons_of_mem _ (ih h).1, (ih h).2⟩

theorem mem_place {k : Nat} {v : α} {m : List (Nat × α)} {p : Nat × α} (h : p ∈ place k v m) : p = (k, v) ∨ p ∈ m := by
  induction m with
  | nil => exact Or.inl (List.mem_singleton.1 h)
  | cons q m ih =>
    obtain ⟨j, w⟩ := q
    by_cases hj : k < j
    · simp only [place, hj, if_true] at h
      exact List.mem_cons.1 h
    · simp only [place, hj, if_false] at h
      rcases List.mem_cons.1 h with rfl | h
      · exact Or.inr (List.mem_cons_self ..)
      · rcases ih h with h | h
        · exact Or.inl h
        · exact Or.inr (List.mem_cons_of_mem _ h)

theorem rising_drop {k : Nat} {m : List (Nat × α)} (h : rising m = true) : rising (drop k m) = true := by
  induction m with
  | nil => rfl
  | cons p m ih =>
    obtain ⟨j, w⟩ := p
    have hc := rising_cons.1 h
    by_cases hj : j = k
    · simpa [drop, hj] using ih hc.2
    · simp only [drop, hj, if_false]
      exact rising_cons.2 ⟨fun q hq => hc.1 q (mem_drop hq).1, ih hc.2⟩

theorem rising_place {k : Nat} {v : α} {m : List (Nat × α)} (h : rising m = true) (hk : ∀ p ∈ m, p.1 ≠ k) :
    rising (place k v m) = true := by
  induction m with
  | nil => rfl
  | cons p m ih =>
    obtain ⟨j, w⟩ := p
    have hc := rising_cons.1 h
    by_cases hj : k < j
    · simp only [place, hj, if_true]
      refine rising_cons.2 ⟨?_, h⟩
      intro q hq
      rcases List.mem_cons.1 hq with rfl | hq
      · exact hj
      · exact Nat.lt_trans hj (hc.1 q hq)
    · simp only [place, hj, if_false]
      have hjk : j < k := by
        have := hk (j, w) (List.mem_cons_self ..)
        simp only at this
        omega
      refine rising_cons.2 ⟨?_, ih hc.2 fun q hq => hk q (List.mem_cons_of_mem _ hq)⟩
      intro q hq
      rcases mem_place hq with rfl | hq
      · exact hjk
      · exact hc.1 q hq

/-- A write keeps the canonical form. -/
theorem wf_write [DecidableEq α] {d : Nat → α} {m : List (Nat × α)} (h : wf d m = true) (k : Nat) (v : α) :
    wf d (write (d k) k v m) = true := by
  simp only [wf, Bool.and_eq_true, List.all_eq_true, decide_eq_true_eq] at h ⊢
  unfold write
  split
  · exact ⟨rising_drop h.1, fun p hp => h.2 p (mem_drop hp).1⟩
  · next hv =>
    refine ⟨rising_place (rising_drop h.1) fun p hp => (mem_drop hp).2, ?_⟩
    intro p hp
    rcases mem_place hp with rfl | hp
    · exact hv
    · exact h.2 p (mem_drop hp).1

end Sys2Proof.Machine.Cells
end

