-- ==== Sys2Proof/Laws/State.lean ====
section
/-!
SUPPORT. What each update of the block leaves alone, one lemma for each field and update, and what the accessors read
after an update.
-/
namespace Sys2Proof.Machine.Device

variable (d : Device)

/-! ## put -/

@[simp] theorem put_cycle (k v : Nat) : (d.put k v).cycle = d.cycle := rfl
@[simp] theorem put_ringNs (k v : Nat) : (d.put k v).ringNs = d.ringNs := rfl
@[simp] theorem put_ringFrac (k v : Nat) : (d.put k v).ringFrac = d.ringFrac := rfl
@[simp] theorem put_steer (k v : Nat) : (d.put k v).steer = d.steer := rfl
@[simp] theorem put_steerRem (k v : Nat) : (d.put k v).steerRem = d.steerRem := rfl
@[simp] theorem put_refclk (k v : Nat) : (d.put k v).refclk = d.refclk := rfl
@[simp] theorem put_relock (k v : Nat) : (d.put k v).relock = d.relock := rfl
@[simp] theorem put_freeCtr (k v : Nat) : (d.put k v).freeCtr = d.freeCtr := rfl
@[simp] theorem put_pend (k v : Nat) : (d.put k v).pend = d.pend := rfl
@[simp] theorem put_ring (k v : Nat) : (d.put k v).ring = d.ring := rfl
@[simp] theorem put_event (k v : Nat) : (d.put k v).event = d.event := rfl
@[simp] theorem put_pins (k v : Nat) : (d.put k v).pins = d.pins := rfl
@[simp] theorem put_sites (k v : Nat) : (d.put k v).sites = d.sites := rfl
@[simp] theorem put_dps (k v : Nat) : (d.put k v).dps = d.dps := rfl
@[simp] theorem put_mem (k v : Nat) : (d.put k v).mem = d.mem := rfl
@[simp] theorem put_heads (k v : Nat) : (d.put k v).heads = d.heads := rfl
@[simp] theorem put_boot (k v : Nat) : (d.put k v).boot = d.boot := rfl
@[simp] theorem put_power (k v : Nat) : (d.put k v).power = d.power := rfl
@[simp] theorem put_ledger (k v : Nat) : (d.put k v).ledger = d.ledger := rfl

/-! ## w -/

@[simp] theorem w_cycle (ix sub v : Nat) : (d.w ix sub v).cycle = d.cycle := rfl
@[simp] theorem w_ringNs (ix sub v : Nat) : (d.w ix sub v).ringNs = d.ringNs := rfl
@[simp] theorem w_ringFrac (ix sub v : Nat) : (d.w ix sub v).ringFrac = d.ringFrac := rfl
@[simp] theorem w_steer (ix sub v : Nat) : (d.w ix sub v).steer = d.steer := rfl
@[simp] theorem w_steerRem (ix sub v : Nat) : (d.w ix sub v).steerRem = d.steerRem := rfl
@[simp] theorem w_refclk (ix sub v : Nat) : (d.w ix sub v).refclk = d.refclk := rfl
@[simp] theorem w_relock (ix sub v : Nat) : (d.w ix sub v).relock = d.relock := rfl
@[simp] theorem w_freeCtr (ix sub v : Nat) : (d.w ix sub v).freeCtr = d.freeCtr := rfl
@[simp] theorem w_pend (ix sub v : Nat) : (d.w ix sub v).pend = d.pend := rfl
@[simp] theorem w_ring (ix sub v : Nat) : (d.w ix sub v).ring = d.ring := rfl
@[simp] theorem w_event (ix sub v : Nat) : (d.w ix sub v).event = d.event := rfl
@[simp] theorem w_pins (ix sub v : Nat) : (d.w ix sub v).pins = d.pins := rfl
@[simp] theorem w_sites (ix sub v : Nat) : (d.w ix sub v).sites = d.sites := rfl
@[simp] theorem w_dps (ix sub v : Nat) : (d.w ix sub v).dps = d.dps := rfl
@[simp] theorem w_mem (ix sub v : Nat) : (d.w ix sub v).mem = d.mem := rfl
@[simp] theorem w_heads (ix sub v : Nat) : (d.w ix sub v).heads = d.heads := rfl
@[simp] theorem w_boot (ix sub v : Nat) : (d.w ix sub v).boot = d.boot := rfl
@[simp] theorem w_power (ix sub v : Nat) : (d.w ix sub v).power = d.power := rfl
@[simp] theorem w_ledger (ix sub v : Nat) : (d.w ix sub v).ledger = d.ledger := rfl

/-! ## wact -/

@[simp] theorem wact_cycle (ix sub v : Nat) : (d.wact ix sub v).cycle = d.cycle := rfl
@[simp] theorem wact_ringNs (ix sub v : Nat) : (d.wact ix sub v).ringNs = d.ringNs := rfl
@[simp] theorem wact_ringFrac (ix sub v : Nat) : (d.wact ix sub v).ringFrac = d.ringFrac := rfl
@[simp] theorem wact_steer (ix sub v : Nat) : (d.wact ix sub v).steer = d.steer := rfl
@[simp] theorem wact_steerRem (ix sub v : Nat) : (d.wact ix sub v).steerRem = d.steerRem := rfl
@[simp] theorem wact_refclk (ix sub v : Nat) : (d.wact ix sub v).refclk = d.refclk := rfl
@[simp] theorem wact_relock (ix sub v : Nat) : (d.wact ix sub v).relock = d.relock := rfl
@[simp] theorem wact_freeCtr (ix sub v : Nat) : (d.wact ix sub v).freeCtr = d.freeCtr := rfl
@[simp] theorem wact_pend (ix sub v : Nat) : (d.wact ix sub v).pend = d.pend := rfl
@[simp] theorem wact_ring (ix sub v : Nat) : (d.wact ix sub v).ring = d.ring := rfl
@[simp] theorem wact_event (ix sub v : Nat) : (d.wact ix sub v).event = d.event := rfl
@[simp] theorem wact_pins (ix sub v : Nat) : (d.wact ix sub v).pins = d.pins := rfl
@[simp] theorem wact_sites (ix sub v : Nat) : (d.wact ix sub v).sites = d.sites := rfl
@[simp] theorem wact_dps (ix sub v : Nat) : (d.wact ix sub v).dps = d.dps := rfl
@[simp] theorem wact_mem (ix sub v : Nat) : (d.wact ix sub v).mem = d.mem := rfl
@[simp] theorem wact_heads (ix sub v : Nat) : (d.wact ix sub v).heads = d.heads := rfl
@[simp] theorem wact_boot (ix sub v : Nat) : (d.wact ix sub v).boot = d.boot := rfl
@[simp] theorem wact_power (ix sub v : Nat) : (d.wact ix sub v).power = d.power := rfl
@[simp] theorem wact_ledger (ix sub v : Nat) : (d.wact ix sub v).ledger = d.ledger := rfl

/-! ## addSat -/

@[simp] theorem addSat_cycle (ix sub b n : Nat) : (d.addSat ix sub b n).cycle = d.cycle := rfl
@[simp] theorem addSat_ringNs (ix sub b n : Nat) : (d.addSat ix sub b n).ringNs = d.ringNs := rfl
@[simp] theorem addSat_ringFrac (ix sub b n : Nat) : (d.addSat ix sub b n).ringFrac = d.ringFrac := rfl
@[simp] theorem addSat_steer (ix sub b n : Nat) : (d.addSat ix sub b n).steer = d.steer := rfl
@[simp] theorem addSat_steerRem (ix sub b n : Nat) : (d.addSat ix sub b n).steerRem = d.steerRem := rfl
@[simp] theorem addSat_refclk (ix sub b n : Nat) : (d.addSat ix sub b n).refclk = d.refclk := rfl
@[simp] theorem addSat_relock (ix sub b n : Nat) : (d.addSat ix sub b n).relock = d.relock := rfl
@[simp] theorem addSat_freeCtr (ix sub b n : Nat) : (d.addSat ix sub b n).freeCtr = d.freeCtr := rfl
@[simp] theorem addSat_pend (ix sub b n : Nat) : (d.addSat ix sub b n).pend = d.pend := rfl
@[simp] theorem addSat_ring (ix sub b n : Nat) : (d.addSat ix sub b n).ring = d.ring := rfl
@[simp] theorem addSat_event (ix sub b n : Nat) : (d.addSat ix sub b n).event = d.event := rfl
@[simp] theorem addSat_pins (ix sub b n : Nat) : (d.addSat ix sub b n).pins = d.pins := rfl
@[simp] theorem addSat_sites (ix sub b n : Nat) : (d.addSat ix sub b n).sites = d.sites := rfl
@[simp] theorem addSat_dps (ix sub b n : Nat) : (d.addSat ix sub b n).dps = d.dps := rfl
@[simp] theorem addSat_mem (ix sub b n : Nat) : (d.addSat ix sub b n).mem = d.mem := rfl
@[simp] theorem addSat_heads (ix sub b n : Nat) : (d.addSat ix sub b n).heads = d.heads := rfl
@[simp] theorem addSat_boot (ix sub b n : Nat) : (d.addSat ix sub b n).boot = d.boot := rfl
@[simp] theorem addSat_power (ix sub b n : Nat) : (d.addSat ix sub b n).power = d.power := rfl
@[simp] theorem addSat_ledger (ix sub b n : Nat) : (d.addSat ix sub b n).ledger = d.ledger := rfl

/-! ## addWrap -/

@[simp] theorem addWrap_cycle (ix sub b n : Nat) : (d.addWrap ix sub b n).cycle = d.cycle := rfl
@[simp] theorem addWrap_ringNs (ix sub b n : Nat) : (d.addWrap ix sub b n).ringNs = d.ringNs := rfl
@[simp] theorem addWrap_ringFrac (ix sub b n : Nat) : (d.addWrap ix sub b n).ringFrac = d.ringFrac := rfl
@[simp] theorem addWrap_steer (ix sub b n : Nat) : (d.addWrap ix sub b n).steer = d.steer := rfl
@[simp] theorem addWrap_steerRem (ix sub b n : Nat) : (d.addWrap ix sub b n).steerRem = d.steerRem := rfl
@[simp] theorem addWrap_refclk (ix sub b n : Nat) : (d.addWrap ix sub b n).refclk = d.refclk := rfl
@[simp] theorem addWrap_relock (ix sub b n : Nat) : (d.addWrap ix sub b n).relock = d.relock := rfl
@[simp] theorem addWrap_freeCtr (ix sub b n : Nat) : (d.addWrap ix sub b n).freeCtr = d.freeCtr := rfl
@[simp] theorem addWrap_pend (ix sub b n : Nat) : (d.addWrap ix sub b n).pend = d.pend := rfl
@[simp] theorem addWrap_ring (ix sub b n : Nat) : (d.addWrap ix sub b n).ring = d.ring := rfl
@[simp] theorem addWrap_event (ix sub b n : Nat) : (d.addWrap ix sub b n).event = d.event := rfl
@[simp] theorem addWrap_pins (ix sub b n : Nat) : (d.addWrap ix sub b n).pins = d.pins := rfl
@[simp] theorem addWrap_sites (ix sub b n : Nat) : (d.addWrap ix sub b n).sites = d.sites := rfl
@[simp] theorem addWrap_dps (ix sub b n : Nat) : (d.addWrap ix sub b n).dps = d.dps := rfl
@[simp] theorem addWrap_mem (ix sub b n : Nat) : (d.addWrap ix sub b n).mem = d.mem := rfl
@[simp] theorem addWrap_heads (ix sub b n : Nat) : (d.addWrap ix sub b n).heads = d.heads := rfl
@[simp] theorem addWrap_boot (ix sub b n : Nat) : (d.addWrap ix sub b n).boot = d.boot := rfl
@[simp] theorem addWrap_power (ix sub b n : Nat) : (d.addWrap ix sub b n).power = d.power := rfl
@[simp] theorem addWrap_ledger (ix sub b n : Nat) : (d.addWrap ix sub b n).ledger = d.ledger := rfl

/-! ## wbit -/

@[simp] theorem wbit_cycle (ix sub b : Nat) (v : Bool) : (d.wbit ix sub b v).cycle = d.cycle := rfl
@[simp] theorem wbit_ringNs (ix sub b : Nat) (v : Bool) : (d.wbit ix sub b v).ringNs = d.ringNs := rfl
@[simp] theorem wbit_ringFrac (ix sub b : Nat) (v : Bool) : (d.wbit ix sub b v).ringFrac = d.ringFrac := rfl
@[simp] theorem wbit_steer (ix sub b : Nat) (v : Bool) : (d.wbit ix sub b v).steer = d.steer := rfl
@[simp] theorem wbit_steerRem (ix sub b : Nat) (v : Bool) : (d.wbit ix sub b v).steerRem = d.steerRem := rfl
@[simp] theorem wbit_refclk (ix sub b : Nat) (v : Bool) : (d.wbit ix sub b v).refclk = d.refclk := rfl
@[simp] theorem wbit_relock (ix sub b : Nat) (v : Bool) : (d.wbit ix sub b v).relock = d.relock := rfl
@[simp] theorem wbit_freeCtr (ix sub b : Nat) (v : Bool) : (d.wbit ix sub b v).freeCtr = d.freeCtr := rfl
@[simp] theorem wbit_pend (ix sub b : Nat) (v : Bool) : (d.wbit ix sub b v).pend = d.pend := rfl
@[simp] theorem wbit_ring (ix sub b : Nat) (v : Bool) : (d.wbit ix sub b v).ring = d.ring := rfl
@[simp] theorem wbit_event (ix sub b : Nat) (v : Bool) : (d.wbit ix sub b v).event = d.event := rfl
@[simp] theorem wbit_pins (ix sub b : Nat) (v : Bool) : (d.wbit ix sub b v).pins = d.pins := rfl
@[simp] theorem wbit_sites (ix sub b : Nat) (v : Bool) : (d.wbit ix sub b v).sites = d.sites := rfl
@[simp] theorem wbit_dps (ix sub b : Nat) (v : Bool) : (d.wbit ix sub b v).dps = d.dps := rfl
@[simp] theorem wbit_mem (ix sub b : Nat) (v : Bool) : (d.wbit ix sub b v).mem = d.mem := rfl
@[simp] theorem wbit_heads (ix sub b : Nat) (v : Bool) : (d.wbit ix sub b v).heads = d.heads := rfl
@[simp] theorem wbit_boot (ix sub b : Nat) (v : Bool) : (d.wbit ix sub b v).boot = d.boot := rfl
@[simp] theorem wbit_power (ix sub b : Nat) (v : Bool) : (d.wbit ix sub b v).power = d.power := rfl
@[simp] theorem wbit_ledger (ix sub b : Nat) (v : Bool) : (d.wbit ix sub b v).ledger = d.ledger := rfl

/-! ## fresh -/

@[simp] theorem fresh_objs : (d.fresh).objs = d.objs := rfl
@[simp] theorem fresh_cycle : (d.fresh).cycle = d.cycle := rfl
@[simp] theorem fresh_ringNs : (d.fresh).ringNs = d.ringNs := rfl
@[simp] theorem fresh_ringFrac : (d.fresh).ringFrac = d.ringFrac := rfl
@[simp] theorem fresh_steer : (d.fresh).steer = d.steer := rfl
@[simp] theorem fresh_steerRem : (d.fresh).steerRem = d.steerRem := rfl
@[simp] theorem fresh_refclk : (d.fresh).refclk = d.refclk := rfl
@[simp] theorem fresh_relock : (d.fresh).relock = d.relock := rfl
@[simp] theorem fresh_pend : (d.fresh).pend = d.pend := rfl
@[simp] theorem fresh_ring : (d.fresh).ring = d.ring := rfl
@[simp] theorem fresh_event : (d.fresh).event = d.event := rfl
@[simp] theorem fresh_pins : (d.fresh).pins = d.pins := rfl
@[simp] theorem fresh_sites : (d.fresh).sites = d.sites := rfl
@[simp] theorem fresh_dps : (d.fresh).dps = d.dps := rfl
@[simp] theorem fresh_mem : (d.fresh).mem = d.mem := rfl
@[simp] theorem fresh_heads : (d.fresh).heads = d.heads := rfl
@[simp] theorem fresh_boot : (d.fresh).boot = d.boot := rfl
@[simp] theorem fresh_power : (d.fresh).power = d.power := rfl
@[simp] theorem fresh_ledger : (d.fresh).ledger = d.ledger := rfl

/-! ## raise -/

@[simp] theorem raise_objs (src : Nat) : (d.raise src).objs = d.objs := by unfold raise; dsimp only; split <;> rfl
@[simp] theorem raise_cycle (src : Nat) : (d.raise src).cycle = d.cycle := by unfold raise; dsimp only; split <;> rfl
@[simp] theorem raise_ringNs (src : Nat) : (d.raise src).ringNs = d.ringNs := by unfold raise; dsimp only; split <;> rfl
@[simp] theorem raise_ringFrac (src : Nat) : (d.raise src).ringFrac = d.ringFrac := by unfold raise; dsimp only; split <;> rfl
@[simp] theorem raise_steer (src : Nat) : (d.raise src).steer = d.steer := by unfold raise; dsimp only; split <;> rfl
@[simp] theorem raise_steerRem (src : Nat) : (d.raise src).steerRem = d.steerRem := by unfold raise; dsimp only; split <;> rfl
@[simp] theorem raise_refclk (src : Nat) : (d.raise src).refclk = d.refclk := by unfold raise; dsimp only; split <;> rfl
@[simp] theorem raise_relock (src : Nat) : (d.raise src).relock = d.relock := by unfold raise; dsimp only; split <;> rfl
@[simp] theorem raise_freeCtr (src : Nat) : (d.raise src).freeCtr = d.freeCtr := by unfold raise; dsimp only; split <;> rfl
@[simp] theorem raise_pend (src : Nat) : (d.raise src).pend = d.pend := by unfold raise; dsimp only; split <;> rfl
@[simp] theorem raise_ring (src : Nat) : (d.raise src).ring = d.ring := by unfold raise; dsimp only; split <;> rfl
@[simp] theorem raise_pins (src : Nat) : (d.raise src).pins = d.pins := by unfold raise; dsimp only; split <;> rfl
@[simp] theorem raise_sites (src : Nat) : (d.raise src).sites = d.sites := by unfold raise; dsimp only; split <;> rfl
@[simp] theorem raise_dps (src : Nat) : (d.raise src).dps = d.dps := by unfold raise; dsimp only; split <;> rfl
@[simp] theorem raise_mem (src : Nat) : (d.raise src).mem = d.mem := by unfold raise; dsimp only; split <;> rfl
@[simp] theorem raise_heads (src : Nat) : (d.raise src).heads = d.heads := by unfold raise; dsimp only; split <;> rfl
@[simp] theorem raise_boot (src : Nat) : (d.raise src).boot = d.boot := by unfold raise; dsimp only; split <;> rfl
@[simp] theorem raise_power (src : Nat) : (d.raise src).power = d.power := by unfold raise; dsimp only; split <;> rfl
@[simp] theorem raise_ledger (src : Nat) : (d.raise src).ledger = d.ledger := by unfold raise; dsimp only; split <;> rfl

/-! ## registerSnap -/

@[simp] theorem registerSnap_objs (kind src c : Nat) : (registerSnap kind src c d).objs = d.objs := rfl
@[simp] theorem registerSnap_cycle (kind src c : Nat) : (registerSnap kind src c d).cycle = d.cycle := rfl
@[simp] theorem registerSnap_ringNs (kind src c : Nat) : (registerSnap kind src c d).ringNs = d.ringNs := rfl
@[simp] theorem registerSnap_ringFrac (kind src c : Nat) : (registerSnap kind src c d).ringFrac = d.ringFrac := rfl
@[simp] theorem registerSnap_steer (kind src c : Nat) : (registerSnap kind src c d).steer = d.steer := rfl
@[simp] theorem registerSnap_steerRem (kind src c : Nat) : (registerSnap kind src c d).steerRem = d.steerRem := rfl
@[simp] theorem registerSnap_refclk (kind src c : Nat) : (registerSnap kind src c d).refclk = d.refclk := rfl
@[simp] theorem registerSnap_relock (kind src c : Nat) : (registerSnap kind src c d).relock = d.relock := rfl
@[simp] theorem registerSnap_freeCtr (kind src c : Nat) : (registerSnap kind src c d).freeCtr = d.freeCtr := rfl
@[simp] theorem registerSnap_pend (kind src c : Nat) : (registerSnap kind src c d).pend = d.pend := rfl
@[simp] theorem registerSnap_ring (kind src c : Nat) : (registerSnap kind src c d).ring = d.ring := rfl
@[simp] theorem registerSnap_pins (kind src c : Nat) : (registerSnap kind src c d).pins = d.pins := rfl
@[simp] theorem registerSnap_sites (kind src c : Nat) : (registerSnap kind src c d).sites = d.sites := rfl
@[simp] theorem registerSnap_dps (kind src c : Nat) : (registerSnap kind src c d).dps = d.dps := rfl
@[simp] theorem registerSnap_mem (kind src c : Nat) : (registerSnap kind src c d).mem = d.mem := rfl
@[simp] theorem registerSnap_heads (kind src c : Nat) : (registerSnap kind src c d).heads = d.heads := rfl
@[simp] theorem registerSnap_boot (kind src c : Nat) : (registerSnap kind src c d).boot = d.boot := rfl
@[simp] theorem registerSnap_power (kind src c : Nat) : (registerSnap kind src c d).power = d.power := rfl
@[simp] theorem registerSnap_ledger (kind src c : Nat) : (registerSnap kind src c d).ledger = d.ledger := rfl

/-! ## setRole -/

@[simp] theorem setRole_cycle (p : Port) (r : Nat) : (d.setRole p r).cycle = d.cycle := rfl
@[simp] theorem setRole_ringNs (p : Port) (r : Nat) : (d.setRole p r).ringNs = d.ringNs := rfl
@[simp] theorem setRole_ringFrac (p : Port) (r : Nat) : (d.setRole p r).ringFrac = d.ringFrac := rfl
@[simp] theorem setRole_steer (p : Port) (r : Nat) : (d.setRole p r).steer = d.steer := rfl
@[simp] theorem setRole_steerRem (p : Port) (r : Nat) : (d.setRole p r).steerRem = d.steerRem := rfl
@[simp] theorem setRole_refclk (p : Port) (r : Nat) : (d.setRole p r).refclk = d.refclk := rfl
@[simp] theorem setRole_relock (p : Port) (r : Nat) : (d.setRole p r).relock = d.relock := rfl
@[simp] theorem setRole_freeCtr (p : Port) (r : Nat) : (d.setRole p r).freeCtr = d.freeCtr := rfl
@[simp] theorem setRole_pend (p : Port) (r : Nat) : (d.setRole p r).pend = d.pend := rfl
@[simp] theorem setRole_ring (p : Port) (r : Nat) : (d.setRole p r).ring = d.ring := rfl
@[simp] theorem setRole_event (p : Port) (r : Nat) : (d.setRole p r).event = d.event := rfl
@[simp] theorem setRole_pins (p : Port) (r : Nat) : (d.setRole p r).pins = d.pins := rfl
@[simp] theorem setRole_sites (p : Port) (r : Nat) : (d.setRole p r).sites = d.sites := rfl
@[simp] theorem setRole_dps (p : Port) (r : Nat) : (d.setRole p r).dps = d.dps := rfl
@[simp] theorem setRole_mem (p : Port) (r : Nat) : (d.setRole p r).mem = d.mem := rfl
@[simp] theorem setRole_heads (p : Port) (r : Nat) : (d.setRole p r).heads = d.heads := rfl
@[simp] theorem setRole_boot (p : Port) (r : Nat) : (d.setRole p r).boot = d.boot := rfl
@[simp] theorem setRole_power (p : Port) (r : Nat) : (d.setRole p r).power = d.power := rfl
@[simp] theorem setRole_ledger (p : Port) (r : Nat) : (d.setRole p r).ledger = d.ledger := rfl

/-! ## violate -/

@[simp] theorem violate_cycle (p : Port) (ix sub kind : Nat) : (d.violate p ix sub kind).cycle = d.cycle := by unfold violate; rw [w_cycle, addSat_cycle]
@[simp] theorem violate_ringNs (p : Port) (ix sub kind : Nat) : (d.violate p ix sub kind).ringNs = d.ringNs := by unfold violate; rw [w_ringNs, addSat_ringNs]
@[simp] theorem violate_ringFrac (p : Port) (ix sub kind : Nat) : (d.violate p ix sub kind).ringFrac = d.ringFrac := by unfold violate; rw [w_ringFrac, addSat_ringFrac]
@[simp] theorem violate_steer (p : Port) (ix sub kind : Nat) : (d.violate p ix sub kind).steer = d.steer := by unfold violate; rw [w_steer, addSat_steer]
@[simp] theorem violate_steerRem (p : Port) (ix sub kind : Nat) : (d.violate p ix sub kind).steerRem = d.steerRem := by unfold violate; rw [w_steerRem, addSat_steerRem]
@[simp] theorem violate_refclk (p : Port) (ix sub kind : Nat) : (d.violate p ix sub kind).refclk = d.refclk := by unfold violate; rw [w_refclk, addSat_refclk]
@[simp] theorem violate_relock (p : Port) (ix sub kind : Nat) : (d.violate p ix sub kind).relock = d.relock := by unfold violate; rw [w_relock, addSat_relock]
@[simp] theorem violate_freeCtr (p : Port) (ix sub kind : Nat) : (d.violate p ix sub kind).freeCtr = d.freeCtr := by unfold violate; rw [w_freeCtr, addSat_freeCtr]
@[simp] theorem violate_pend (p : Port) (ix sub kind : Nat) : (d.violate p ix sub kind).pend = d.pend := by unfold violate; rw [w_pend, addSat_pend]
@[simp] theorem violate_ring (p : Port) (ix sub kind : Nat) : (d.violate p ix sub kind).ring = d.ring := by unfold violate; rw [w_ring, addSat_ring]
@[simp] theorem violate_event (p : Port) (ix sub kind : Nat) : (d.violate p ix sub kind).event = d.event := by unfold violate; rw [w_event, addSat_event]
@[simp] theorem violate_pins (p : Port) (ix sub kind : Nat) : (d.violate p ix sub kind).pins = d.pins := by unfold violate; rw [w_pins, addSat_pins]
@[simp] theorem violate_sites (p : Port) (ix sub kind : Nat) : (d.violate p ix sub kind).sites = d.sites := by unfold violate; rw [w_sites, addSat_sites]
@[simp] theorem violate_dps (p : Port) (ix sub kind : Nat) : (d.violate p ix sub kind).dps = d.dps := by unfold violate; rw [w_dps, addSat_dps]
@[simp] theorem violate_mem (p : Port) (ix sub kind : Nat) : (d.violate p ix sub kind).mem = d.mem := by unfold violate; rw [w_mem, addSat_mem]
@[simp] theorem violate_heads (p : Port) (ix sub kind : Nat) : (d.violate p ix sub kind).heads = d.heads := by unfold violate; rw [w_heads, addSat_heads]
@[simp] theorem violate_boot (p : Port) (ix sub kind : Nat) : (d.violate p ix sub kind).boot = d.boot := by unfold violate; rw [w_boot, addSat_boot]
@[simp] theorem violate_power (p : Port) (ix sub kind : Nat) : (d.violate p ix sub kind).power = d.power := by unfold violate; rw [w_power, addSat_power]
@[simp] theorem violate_ledger (p : Port) (ix sub kind : Nat) : (d.violate p ix sub kind).ledger = d.ledger := by unfold violate; rw [w_ledger, addSat_ledger]

/-! ## addPend -/

@[simp] theorem addPend_objs (b : Block) : (d.addPend b).objs = d.objs := rfl
@[simp] theorem addPend_cycle (b : Block) : (d.addPend b).cycle = d.cycle := rfl
@[simp] theorem addPend_ringNs (b : Block) : (d.addPend b).ringNs = d.ringNs := rfl
@[simp] theorem addPend_ringFrac (b : Block) : (d.addPend b).ringFrac = d.ringFrac := rfl
@[simp] theorem addPend_steer (b : Block) : (d.addPend b).steer = d.steer := rfl
@[simp] theorem addPend_steerRem (b : Block) : (d.addPend b).steerRem = d.steerRem := rfl
@[simp] theorem addPend_refclk (b : Block) : (d.addPend b).refclk = d.refclk := rfl
@[simp] theorem addPend_relock (b : Block) : (d.addPend b).relock = d.relock := rfl
@[simp] theorem addPend_freeCtr (b : Block) : (d.addPend b).freeCtr = d.freeCtr := rfl
@[simp] theorem addPend_ring (b : Block) : (d.addPend b).ring = d.ring := rfl
@[simp] theorem addPend_event (b : Block) : (d.addPend b).event = d.event := rfl
@[simp] theorem addPend_pins (b : Block) : (d.addPend b).pins = d.pins := rfl
@[simp] theorem addPend_sites (b : Block) : (d.addPend b).sites = d.sites := rfl
@[simp] theorem addPend_dps (b : Block) : (d.addPend b).dps = d.dps := rfl
@[simp] theorem addPend_mem (b : Block) : (d.addPend b).mem = d.mem := rfl
@[simp] theorem addPend_heads (b : Block) : (d.addPend b).heads = d.heads := rfl
@[simp] theorem addPend_boot (b : Block) : (d.addPend b).boot = d.boot := rfl
@[simp] theorem addPend_power (b : Block) : (d.addPend b).power = d.power := rfl
@[simp] theorem addPend_ledger (b : Block) : (d.addPend b).ledger = d.ledger := rfl

/-! ## dropPend -/

@[simp] theorem dropPend_objs (b : Block) : (d.dropPend b).objs = d.objs := rfl
@[simp] theorem dropPend_cycle (b : Block) : (d.dropPend b).cycle = d.cycle := rfl
@[simp] theorem dropPend_ringNs (b : Block) : (d.dropPend b).ringNs = d.ringNs := rfl
@[simp] theorem dropPend_ringFrac (b : Block) : (d.dropPend b).ringFrac = d.ringFrac := rfl
@[simp] theorem dropPend_steer (b : Block) : (d.dropPend b).steer = d.steer := rfl
@[simp] theorem dropPend_steerRem (b : Block) : (d.dropPend b).steerRem = d.steerRem := rfl
@[simp] theorem dropPend_refclk (b : Block) : (d.dropPend b).refclk = d.refclk := rfl
@[simp] theorem dropPend_relock (b : Block) : (d.dropPend b).relock = d.relock := rfl
@[simp] theorem dropPend_freeCtr (b : Block) : (d.dropPend b).freeCtr = d.freeCtr := rfl
@[simp] theorem dropPend_ring (b : Block) : (d.dropPend b).ring = d.ring := rfl
@[simp] theorem dropPend_event (b : Block) : (d.dropPend b).event = d.event := rfl
@[simp] theorem dropPend_pins (b : Block) : (d.dropPend b).pins = d.pins := rfl
@[simp] theorem dropPend_sites (b : Block) : (d.dropPend b).sites = d.sites := rfl
@[simp] theorem dropPend_dps (b : Block) : (d.dropPend b).dps = d.dps := rfl
@[simp] theorem dropPend_mem (b : Block) : (d.dropPend b).mem = d.mem := rfl
@[simp] theorem dropPend_heads (b : Block) : (d.dropPend b).heads = d.heads := rfl
@[simp] theorem dropPend_boot (b : Block) : (d.dropPend b).boot = d.boot := rfl
@[simp] theorem dropPend_power (b : Block) : (d.dropPend b).power = d.power := rfl
@[simp] theorem dropPend_ledger (b : Block) : (d.dropPend b).ledger = d.ledger := rfl

/-! ## sdramPut -/

@[simp] theorem sdramPut_objs (a : Nat) (b : Byte) : (d.sdramPut a b).objs = d.objs := rfl
@[simp] theorem sdramPut_cycle (a : Nat) (b : Byte) : (d.sdramPut a b).cycle = d.cycle := rfl
@[simp] theorem sdramPut_ringNs (a : Nat) (b : Byte) : (d.sdramPut a b).ringNs = d.ringNs := rfl
@[simp] theorem sdramPut_ringFrac (a : Nat) (b : Byte) : (d.sdramPut a b).ringFrac = d.ringFrac := rfl
@[simp] theorem sdramPut_steer (a : Nat) (b : Byte) : (d.sdramPut a b).steer = d.steer := rfl
@[simp] theorem sdramPut_steerRem (a : Nat) (b : Byte) : (d.sdramPut a b).steerRem = d.steerRem := rfl
@[simp] theorem sdramPut_refclk (a : Nat) (b : Byte) : (d.sdramPut a b).refclk = d.refclk := rfl
@[simp] theorem sdramPut_relock (a : Nat) (b : Byte) : (d.sdramPut a b).relock = d.relock := rfl
@[simp] theorem sdramPut_freeCtr (a : Nat) (b : Byte) : (d.sdramPut a b).freeCtr = d.freeCtr := rfl
@[simp] theorem sdramPut_pend (a : Nat) (b : Byte) : (d.sdramPut a b).pend = d.pend := rfl
@[simp] theorem sdramPut_ring (a : Nat) (b : Byte) : (d.sdramPut a b).ring = d.ring := rfl
@[simp] theorem sdramPut_event (a : Nat) (b : Byte) : (d.sdramPut a b).event = d.event := rfl
@[simp] theorem sdramPut_pins (a : Nat) (b : Byte) : (d.sdramPut a b).pins = d.pins := rfl
@[simp] theorem sdramPut_sites (a : Nat) (b : Byte) : (d.sdramPut a b).sites = d.sites := rfl
@[simp] theorem sdramPut_dps (a : Nat) (b : Byte) : (d.sdramPut a b).dps = d.dps := rfl
@[simp] theorem sdramPut_heads (a : Nat) (b : Byte) : (d.sdramPut a b).heads = d.heads := rfl
@[simp] theorem sdramPut_boot (a : Nat) (b : Byte) : (d.sdramPut a b).boot = d.boot := rfl
@[simp] theorem sdramPut_power (a : Nat) (b : Byte) : (d.sdramPut a b).power = d.power := rfl
@[simp] theorem sdramPut_ledger (a : Nat) (b : Byte) : (d.sdramPut a b).ledger = d.ledger := rfl

/-! ## sramPut -/

@[simp] theorem sramPut_objs (a : Nat) (b : Byte) : (d.sramPut a b).objs = d.objs := rfl
@[simp] theorem sramPut_cycle (a : Nat) (b : Byte) : (d.sramPut a b).cycle = d.cycle := rfl
@[simp] theorem sramPut_ringNs (a : Nat) (b : Byte) : (d.sramPut a b).ringNs = d.ringNs := rfl
@[simp] theorem sramPut_ringFrac (a : Nat) (b : Byte) : (d.sramPut a b).ringFrac = d.ringFrac := rfl
@[simp] theorem sramPut_steer (a : Nat) (b : Byte) : (d.sramPut a b).steer = d.steer := rfl
@[simp] theorem sramPut_steerRem (a : Nat) (b : Byte) : (d.sramPut a b).steerRem = d.steerRem := rfl
@[simp] theorem sramPut_refclk (a : Nat) (b : Byte) : (d.sramPut a b).refclk = d.refclk := rfl
@[simp] theorem sramPut_relock (a : Nat) (b : Byte) : (d.sramPut a b).relock = d.relock := rfl
@[simp] theorem sramPut_freeCtr (a : Nat) (b : Byte) : (d.sramPut a b).freeCtr = d.freeCtr := rfl
@[simp] theorem sramPut_pend (a : Nat) (b : Byte) : (d.sramPut a b).pend = d.pend := rfl
@[simp] theorem sramPut_ring (a : Nat) (b : Byte) : (d.sramPut a b).ring = d.ring := rfl
@[simp] theorem sramPut_event (a : Nat) (b : Byte) : (d.sramPut a b).event = d.event := rfl
@[simp] theorem sramPut_pins (a : Nat) (b : Byte) : (d.sramPut a b).pins = d.pins := rfl
@[simp] theorem sramPut_sites (a : Nat) (b : Byte) : (d.sramPut a b).sites = d.sites := rfl
@[simp] theorem sramPut_dps (a : Nat) (b : Byte) : (d.sramPut a b).dps = d.dps := rfl
@[simp] theorem sramPut_heads (a : Nat) (b : Byte) : (d.sramPut a b).heads = d.heads := rfl
@[simp] theorem sramPut_boot (a : Nat) (b : Byte) : (d.sramPut a b).boot = d.boot := rfl
@[simp] theorem sramPut_power (a : Nat) (b : Byte) : (d.sramPut a b).power = d.power := rfl
@[simp] theorem sramPut_ledger (a : Nat) (b : Byte) : (d.sramPut a b).ledger = d.ledger := rfl

/-! ## setSiteState -/

@[simp] theorem setSiteState_cycle (s v : Nat) : (d.setSiteState s v).cycle = d.cycle := rfl
@[simp] theorem setSiteState_ringNs (s v : Nat) : (d.setSiteState s v).ringNs = d.ringNs := rfl
@[simp] theorem setSiteState_ringFrac (s v : Nat) : (d.setSiteState s v).ringFrac = d.ringFrac := rfl
@[simp] theorem setSiteState_steer (s v : Nat) : (d.setSiteState s v).steer = d.steer := rfl
@[simp] theorem setSiteState_steerRem (s v : Nat) : (d.setSiteState s v).steerRem = d.steerRem := rfl
@[simp] theorem setSiteState_refclk (s v : Nat) : (d.setSiteState s v).refclk = d.refclk := rfl
@[simp] theorem setSiteState_relock (s v : Nat) : (d.setSiteState s v).relock = d.relock := rfl
@[simp] theorem setSiteState_freeCtr (s v : Nat) : (d.setSiteState s v).freeCtr = d.freeCtr := rfl
@[simp] theorem setSiteState_pend (s v : Nat) : (d.setSiteState s v).pend = d.pend := rfl
@[simp] theorem setSiteState_ring (s v : Nat) : (d.setSiteState s v).ring = d.ring := rfl
@[simp] theorem setSiteState_event (s v : Nat) : (d.setSiteState s v).event = d.event := rfl
@[simp] theorem setSiteState_pins (s v : Nat) : (d.setSiteState s v).pins = d.pins := rfl
@[simp] theorem setSiteState_sites (s v : Nat) : (d.setSiteState s v).sites = d.sites := rfl
@[simp] theorem setSiteState_dps (s v : Nat) : (d.setSiteState s v).dps = d.dps := rfl
@[simp] theorem setSiteState_mem (s v : Nat) : (d.setSiteState s v).mem = d.mem := rfl
@[simp] theorem setSiteState_heads (s v : Nat) : (d.setSiteState s v).heads = d.heads := rfl
@[simp] theorem setSiteState_boot (s v : Nat) : (d.setSiteState s v).boot = d.boot := rfl
@[simp] theorem setSiteState_power (s v : Nat) : (d.setSiteState s v).power = d.power := rfl
@[simp] theorem setSiteState_ledger (s v : Nat) : (d.setSiteState s v).ledger = d.ledger := rfl

/-! ## setSeq -/

@[simp] theorem setSeq_objs (s : Nat) (x : Seq) : (d.setSeq s x).objs = d.objs := rfl
@[simp] theorem setSeq_cycle (s : Nat) (x : Seq) : (d.setSeq s x).cycle = d.cycle := rfl
@[simp] theorem setSeq_ringNs (s : Nat) (x : Seq) : (d.setSeq s x).ringNs = d.ringNs := rfl
@[simp] theorem setSeq_ringFrac (s : Nat) (x : Seq) : (d.setSeq s x).ringFrac = d.ringFrac := rfl
@[simp] theorem setSeq_steer (s : Nat) (x : Seq) : (d.setSeq s x).steer = d.steer := rfl
@[simp] theorem setSeq_steerRem (s : Nat) (x : Seq) : (d.setSeq s x).steerRem = d.steerRem := rfl
@[simp] theorem setSeq_refclk (s : Nat) (x : Seq) : (d.setSeq s x).refclk = d.refclk := rfl
@[simp] theorem setSeq_relock (s : Nat) (x : Seq) : (d.setSeq s x).relock = d.relock := rfl
@[simp] theorem setSeq_freeCtr (s : Nat) (x : Seq) : (d.setSeq s x).freeCtr = d.freeCtr := rfl
@[simp] theorem setSeq_pend (s : Nat) (x : Seq) : (d.setSeq s x).pend = d.pend := rfl
@[simp] theorem setSeq_ring (s : Nat) (x : Seq) : (d.setSeq s x).ring = d.ring := rfl
@[simp] theorem setSeq_event (s : Nat) (x : Seq) : (d.setSeq s x).event = d.event := rfl
@[simp] theorem setSeq_pins (s : Nat) (x : Seq) : (d.setSeq s x).pins = d.pins := rfl
@[simp] theorem setSeq_dps (s : Nat) (x : Seq) : (d.setSeq s x).dps = d.dps := rfl
@[simp] theorem setSeq_mem (s : Nat) (x : Seq) : (d.setSeq s x).mem = d.mem := rfl
@[simp] theorem setSeq_heads (s : Nat) (x : Seq) : (d.setSeq s x).heads = d.heads := rfl
@[simp] theorem setSeq_boot (s : Nat) (x : Seq) : (d.setSeq s x).boot = d.boot := rfl
@[simp] theorem setSeq_power (s : Nat) (x : Seq) : (d.setSeq s x).power = d.power := rfl
@[simp] theorem setSeq_ledger (s : Nat) (x : Seq) : (d.setSeq s x).ledger = d.ledger := rfl

/-! ## setStream -/

@[simp] theorem setStream_objs (q : Nat) (x : Stream) : (d.setStream q x).objs = d.objs := rfl
@[simp] theorem setStream_cycle (q : Nat) (x : Stream) : (d.setStream q x).cycle = d.cycle := rfl
@[simp] theorem setStream_ringNs (q : Nat) (x : Stream) : (d.setStream q x).ringNs = d.ringNs := rfl
@[simp] theorem setStream_ringFrac (q : Nat) (x : Stream) : (d.setStream q x).ringFrac = d.ringFrac := rfl
@[simp] theorem setStream_steer (q : Nat) (x : Stream) : (d.setStream q x).steer = d.steer := rfl
@[simp] theorem setStream_steerRem (q : Nat) (x : Stream) : (d.setStream q x).steerRem = d.steerRem := rfl
@[simp] theorem setStream_refclk (q : Nat) (x : Stream) : (d.setStream q x).refclk = d.refclk := rfl
@[simp] theorem setStream_relock (q : Nat) (x : Stream) : (d.setStream q x).relock = d.relock := rfl
@[simp] theorem setStream_freeCtr (q : Nat) (x : Stream) : (d.setStream q x).freeCtr = d.freeCtr := rfl
@[simp] theorem setStream_pend (q : Nat) (x : Stream) : (d.setStream q x).pend = d.pend := rfl
@[simp] theorem setStream_ring (q : Nat) (x : Stream) : (d.setStream q x).ring = d.ring := rfl
@[simp] theorem setStream_event (q : Nat) (x : Stream) : (d.setStream q x).event = d.event := rfl
@[simp] theorem setStream_pins (q : Nat) (x : Stream) : (d.setStream q x).pins = d.pins := rfl
@[simp] theorem setStream_dps (q : Nat) (x : Stream) : (d.setStream q x).dps = d.dps := rfl
@[simp] theorem setStream_mem (q : Nat) (x : Stream) : (d.setStream q x).mem = d.mem := rfl
@[simp] theorem setStream_heads (q : Nat) (x : Stream) : (d.setStream q x).heads = d.heads := rfl
@[simp] theorem setStream_boot (q : Nat) (x : Stream) : (d.setStream q x).boot = d.boot := rfl
@[simp] theorem setStream_power (q : Nat) (x : Stream) : (d.setStream q x).power = d.power := rfl
@[simp] theorem setStream_ledger (q : Nat) (x : Stream) : (d.setStream q x).ledger = d.ledger := rfl

/-! ## setFlow -/

@[simp] theorem setFlow_objs (s : Nat) (x : Flow) : (d.setFlow s x).objs = d.objs := rfl
@[simp] theorem setFlow_cycle (s : Nat) (x : Flow) : (d.setFlow s x).cycle = d.cycle := rfl
@[simp] theorem setFlow_ringNs (s : Nat) (x : Flow) : (d.setFlow s x).ringNs = d.ringNs := rfl
@[simp] theorem setFlow_ringFrac (s : Nat) (x : Flow) : (d.setFlow s x).ringFrac = d.ringFrac := rfl
@[simp] theorem setFlow_steer (s : Nat) (x : Flow) : (d.setFlow s x).steer = d.steer := rfl
@[simp] theorem setFlow_steerRem (s : Nat) (x : Flow) : (d.setFlow s x).steerRem = d.steerRem := rfl
@[simp] theorem setFlow_refclk (s : Nat) (x : Flow) : (d.setFlow s x).refclk = d.refclk := rfl
@[simp] theorem setFlow_relock (s : Nat) (x : Flow) : (d.setFlow s x).relock = d.relock := rfl
@[simp] theorem setFlow_freeCtr (s : Nat) (x : Flow) : (d.setFlow s x).freeCtr = d.freeCtr := rfl
@[simp] theorem setFlow_pend (s : Nat) (x : Flow) : (d.setFlow s x).pend = d.pend := rfl
@[simp] theorem setFlow_ring (s : Nat) (x : Flow) : (d.setFlow s x).ring = d.ring := rfl
@[simp] theorem setFlow_event (s : Nat) (x : Flow) : (d.setFlow s x).event = d.event := rfl
@[simp] theorem setFlow_pins (s : Nat) (x : Flow) : (d.setFlow s x).pins = d.pins := rfl
@[simp] theorem setFlow_dps (s : Nat) (x : Flow) : (d.setFlow s x).dps = d.dps := rfl
@[simp] theorem setFlow_mem (s : Nat) (x : Flow) : (d.setFlow s x).mem = d.mem := rfl
@[simp] theorem setFlow_heads (s : Nat) (x : Flow) : (d.setFlow s x).heads = d.heads := rfl
@[simp] theorem setFlow_boot (s : Nat) (x : Flow) : (d.setFlow s x).boot = d.boot := rfl
@[simp] theorem setFlow_power (s : Nat) (x : Flow) : (d.setFlow s x).power = d.power := rfl
@[simp] theorem setFlow_ledger (s : Nat) (x : Flow) : (d.setFlow s x).ledger = d.ledger := rfl

/-! ## setDac -/

@[simp] theorem setDac_objs (q : Nat) (x : Dac) : (d.setDac q x).objs = d.objs := rfl
@[simp] theorem setDac_cycle (q : Nat) (x : Dac) : (d.setDac q x).cycle = d.cycle := rfl
@[simp] theorem setDac_ringNs (q : Nat) (x : Dac) : (d.setDac q x).ringNs = d.ringNs := rfl
@[simp] theorem setDac_ringFrac (q : Nat) (x : Dac) : (d.setDac q x).ringFrac = d.ringFrac := rfl
@[simp] theorem setDac_steer (q : Nat) (x : Dac) : (d.setDac q x).steer = d.steer := rfl
@[simp] theorem setDac_steerRem (q : Nat) (x : Dac) : (d.setDac q x).steerRem = d.steerRem := rfl
@[simp] theorem setDac_refclk (q : Nat) (x : Dac) : (d.setDac q x).refclk = d.refclk := rfl
@[simp] theorem setDac_relock (q : Nat) (x : Dac) : (d.setDac q x).relock = d.relock := rfl
@[simp] theorem setDac_freeCtr (q : Nat) (x : Dac) : (d.setDac q x).freeCtr = d.freeCtr := rfl
@[simp] theorem setDac_pend (q : Nat) (x : Dac) : (d.setDac q x).pend = d.pend := rfl
@[simp] theorem setDac_ring (q : Nat) (x : Dac) : (d.setDac q x).ring = d.ring := rfl
@[simp] theorem setDac_event (q : Nat) (x : Dac) : (d.setDac q x).event = d.event := rfl
@[simp] theorem setDac_sites (q : Nat) (x : Dac) : (d.setDac q x).sites = d.sites := rfl
@[simp] theorem setDac_dps (q : Nat) (x : Dac) : (d.setDac q x).dps = d.dps := rfl
@[simp] theorem setDac_mem (q : Nat) (x : Dac) : (d.setDac q x).mem = d.mem := rfl
@[simp] theorem setDac_heads (q : Nat) (x : Dac) : (d.setDac q x).heads = d.heads := rfl
@[simp] theorem setDac_boot (q : Nat) (x : Dac) : (d.setDac q x).boot = d.boot := rfl
@[simp] theorem setDac_power (q : Nat) (x : Dac) : (d.setDac q x).power = d.power := rfl
@[simp] theorem setDac_ledger (q : Nat) (x : Dac) : (d.setDac q x).ledger = d.ledger := rfl

/-! ## setPin -/

@[simp] theorem setPin_objs (n : Nat) (x : Pin) : (d.setPin n x).objs = d.objs := rfl
@[simp] theorem setPin_cycle (n : Nat) (x : Pin) : (d.setPin n x).cycle = d.cycle := rfl
@[simp] theorem setPin_ringNs (n : Nat) (x : Pin) : (d.setPin n x).ringNs = d.ringNs := rfl
@[simp] theorem setPin_ringFrac (n : Nat) (x : Pin) : (d.setPin n x).ringFrac = d.ringFrac := rfl
@[simp] theorem setPin_steer (n : Nat) (x : Pin) : (d.setPin n x).steer = d.steer := rfl
@[simp] theorem setPin_steerRem (n : Nat) (x : Pin) : (d.setPin n x).steerRem = d.steerRem := rfl
@[simp] theorem setPin_refclk (n : Nat) (x : Pin) : (d.setPin n x).refclk = d.refclk := rfl
@[simp] theorem setPin_relock (n : Nat) (x : Pin) : (d.setPin n x).relock = d.relock := rfl
@[simp] theorem setPin_freeCtr (n : Nat) (x : Pin) : (d.setPin n x).freeCtr = d.freeCtr := rfl
@[simp] theorem setPin_pend (n : Nat) (x : Pin) : (d.setPin n x).pend = d.pend := rfl
@[simp] theorem setPin_ring (n : Nat) (x : Pin) : (d.setPin n x).ring = d.ring := rfl
@[simp] theorem setPin_event (n : Nat) (x : Pin) : (d.setPin n x).event = d.event := rfl
@[simp] theorem setPin_sites (n : Nat) (x : Pin) : (d.setPin n x).sites = d.sites := rfl
@[simp] theorem setPin_dps (n : Nat) (x : Pin) : (d.setPin n x).dps = d.dps := rfl
@[simp] theorem setPin_mem (n : Nat) (x : Pin) : (d.setPin n x).mem = d.mem := rfl
@[simp] theorem setPin_heads (n : Nat) (x : Pin) : (d.setPin n x).heads = d.heads := rfl
@[simp] theorem setPin_boot (n : Nat) (x : Pin) : (d.setPin n x).boot = d.boot := rfl
@[simp] theorem setPin_power (n : Nat) (x : Pin) : (d.setPin n x).power = d.power := rfl
@[simp] theorem setPin_ledger (n : Nat) (x : Pin) : (d.setPin n x).ledger = d.ledger := rfl

/-! ## setChanMon -/

@[simp] theorem setChanMon_objs (n : Nat) (x : Monitor) : (d.setChanMon n x).objs = d.objs := rfl
@[simp] theorem setChanMon_cycle (n : Nat) (x : Monitor) : (d.setChanMon n x).cycle = d.cycle := rfl
@[simp] theorem setChanMon_ringNs (n : Nat) (x : Monitor) : (d.setChanMon n x).ringNs = d.ringNs := rfl
@[simp] theorem setChanMon_ringFrac (n : Nat) (x : Monitor) : (d.setChanMon n x).ringFrac = d.ringFrac := rfl
@[simp] theorem setChanMon_steer (n : Nat) (x : Monitor) : (d.setChanMon n x).steer = d.steer := rfl
@[simp] theorem setChanMon_steerRem (n : Nat) (x : Monitor) : (d.setChanMon n x).steerRem = d.steerRem := rfl
@[simp] theorem setChanMon_refclk (n : Nat) (x : Monitor) : (d.setChanMon n x).refclk = d.refclk := rfl
@[simp] theorem setChanMon_relock (n : Nat) (x : Monitor) : (d.setChanMon n x).relock = d.relock := rfl
@[simp] theorem setChanMon_freeCtr (n : Nat) (x : Monitor) : (d.setChanMon n x).freeCtr = d.freeCtr := rfl
@[simp] theorem setChanMon_pend (n : Nat) (x : Monitor) : (d.setChanMon n x).pend = d.pend := rfl
@[simp] theorem setChanMon_ring (n : Nat) (x : Monitor) : (d.setChanMon n x).ring = d.ring := rfl
@[simp] theorem setChanMon_event (n : Nat) (x : Monitor) : (d.setChanMon n x).event = d.event := rfl
@[simp] theorem setChanMon_sites (n : Nat) (x : Monitor) : (d.setChanMon n x).sites = d.sites := rfl
@[simp] theorem setChanMon_dps (n : Nat) (x : Monitor) : (d.setChanMon n x).dps = d.dps := rfl
@[simp] theorem setChanMon_mem (n : Nat) (x : Monitor) : (d.setChanMon n x).mem = d.mem := rfl
@[simp] theorem setChanMon_heads (n : Nat) (x : Monitor) : (d.setChanMon n x).heads = d.heads := rfl
@[simp] theorem setChanMon_boot (n : Nat) (x : Monitor) : (d.setChanMon n x).boot = d.boot := rfl
@[simp] theorem setChanMon_power (n : Nat) (x : Monitor) : (d.setChanMon n x).power = d.power := rfl
@[simp] theorem setChanMon_ledger (n : Nat) (x : Monitor) : (d.setChanMon n x).ledger = d.ledger := rfl

/-! ## setTmu -/

@[simp] theorem setTmu_objs (n : Nat) (x : Tmu) : (d.setTmu n x).objs = d.objs := rfl
@[simp] theorem setTmu_cycle (n : Nat) (x : Tmu) : (d.setTmu n x).cycle = d.cycle := rfl
@[simp] theorem setTmu_ringNs (n : Nat) (x : Tmu) : (d.setTmu n x).ringNs = d.ringNs := rfl
@[simp] theorem setTmu_ringFrac (n : Nat) (x : Tmu) : (d.setTmu n x).ringFrac = d.ringFrac := rfl
@[simp] theorem setTmu_steer (n : Nat) (x : Tmu) : (d.setTmu n x).steer = d.steer := rfl
@[simp] theorem setTmu_steerRem (n : Nat) (x : Tmu) : (d.setTmu n x).steerRem = d.steerRem := rfl
@[simp] theorem setTmu_refclk (n : Nat) (x : Tmu) : (d.setTmu n x).refclk = d.refclk := rfl
@[simp] theorem setTmu_relock (n : Nat) (x : Tmu) : (d.setTmu n x).relock = d.relock := rfl
@[simp] theorem setTmu_freeCtr (n : Nat) (x : Tmu) : (d.setTmu n x).freeCtr = d.freeCtr := rfl
@[simp] theorem setTmu_pend (n : Nat) (x : Tmu) : (d.setTmu n x).pend = d.pend := rfl
@[simp] theorem setTmu_ring (n : Nat) (x : Tmu) : (d.setTmu n x).ring = d.ring := rfl
@[simp] theorem setTmu_event (n : Nat) (x : Tmu) : (d.setTmu n x).event = d.event := rfl
@[simp] theorem setTmu_sites (n : Nat) (x : Tmu) : (d.setTmu n x).sites = d.sites := rfl
@[simp] theorem setTmu_dps (n : Nat) (x : Tmu) : (d.setTmu n x).dps = d.dps := rfl
@[simp] theorem setTmu_mem (n : Nat) (x : Tmu) : (d.setTmu n x).mem = d.mem := rfl
@[simp] theorem setTmu_heads (n : Nat) (x : Tmu) : (d.setTmu n x).heads = d.heads := rfl
@[simp] theorem setTmu_boot (n : Nat) (x : Tmu) : (d.setTmu n x).boot = d.boot := rfl
@[simp] theorem setTmu_power (n : Nat) (x : Tmu) : (d.setTmu n x).power = d.power := rfl
@[simp] theorem setTmu_ledger (n : Nat) (x : Tmu) : (d.setTmu n x).ledger = d.ledger := rfl

/-! ## setPpmuSkip -/

@[simp] theorem setPpmuSkip_objs (n v : Nat) : (d.setPpmuSkip n v).objs = d.objs := rfl
@[simp] theorem setPpmuSkip_cycle (n v : Nat) : (d.setPpmuSkip n v).cycle = d.cycle := rfl
@[simp] theorem setPpmuSkip_ringNs (n v : Nat) : (d.setPpmuSkip n v).ringNs = d.ringNs := rfl
@[simp] theorem setPpmuSkip_ringFrac (n v : Nat) : (d.setPpmuSkip n v).ringFrac = d.ringFrac := rfl
@[simp] theorem setPpmuSkip_steer (n v : Nat) : (d.setPpmuSkip n v).steer = d.steer := rfl
@[simp] theorem setPpmuSkip_steerRem (n v : Nat) : (d.setPpmuSkip n v).steerRem = d.steerRem := rfl
@[simp] theorem setPpmuSkip_refclk (n v : Nat) : (d.setPpmuSkip n v).refclk = d.refclk := rfl
@[simp] theorem setPpmuSkip_relock (n v : Nat) : (d.setPpmuSkip n v).relock = d.relock := rfl
@[simp] theorem setPpmuSkip_freeCtr (n v : Nat) : (d.setPpmuSkip n v).freeCtr = d.freeCtr := rfl
@[simp] theorem setPpmuSkip_pend (n v : Nat) : (d.setPpmuSkip n v).pend = d.pend := rfl
@[simp] theorem setPpmuSkip_ring (n v : Nat) : (d.setPpmuSkip n v).ring = d.ring := rfl
@[simp] theorem setPpmuSkip_event (n v : Nat) : (d.setPpmuSkip n v).event = d.event := rfl
@[simp] theorem setPpmuSkip_sites (n v : Nat) : (d.setPpmuSkip n v).sites = d.sites := rfl
@[simp] theorem setPpmuSkip_dps (n v : Nat) : (d.setPpmuSkip n v).dps = d.dps := rfl
@[simp] theorem setPpmuSkip_mem (n v : Nat) : (d.setPpmuSkip n v).mem = d.mem := rfl
@[simp] theorem setPpmuSkip_heads (n v : Nat) : (d.setPpmuSkip n v).heads = d.heads := rfl
@[simp] theorem setPpmuSkip_boot (n v : Nat) : (d.setPpmuSkip n v).boot = d.boot := rfl
@[simp] theorem setPpmuSkip_power (n v : Nat) : (d.setPpmuSkip n v).power = d.power := rfl
@[simp] theorem setPpmuSkip_ledger (n v : Nat) : (d.setPpmuSkip n v).ledger = d.ledger := rfl

/-! ## parkChan -/

@[simp] theorem parkChan_objs (n : Nat) : (d.parkChan n).objs = d.objs := rfl
@[simp] theorem parkChan_cycle (n : Nat) : (d.parkChan n).cycle = d.cycle := rfl
@[simp] theorem parkChan_ringNs (n : Nat) : (d.parkChan n).ringNs = d.ringNs := rfl
@[simp] theorem parkChan_ringFrac (n : Nat) : (d.parkChan n).ringFrac = d.ringFrac := rfl
@[simp] theorem parkChan_steer (n : Nat) : (d.parkChan n).steer = d.steer := rfl
@[simp] theorem parkChan_steerRem (n : Nat) : (d.parkChan n).steerRem = d.steerRem := rfl
@[simp] theorem parkChan_refclk (n : Nat) : (d.parkChan n).refclk = d.refclk := rfl
@[simp] theorem parkChan_relock (n : Nat) : (d.parkChan n).relock = d.relock := rfl
@[simp] theorem parkChan_freeCtr (n : Nat) : (d.parkChan n).freeCtr = d.freeCtr := rfl
@[simp] theorem parkChan_pend (n : Nat) : (d.parkChan n).pend = d.pend := rfl
@[simp] theorem parkChan_ring (n : Nat) : (d.parkChan n).ring = d.ring := rfl
@[simp] theorem parkChan_event (n : Nat) : (d.parkChan n).event = d.event := rfl
@[simp] theorem parkChan_sites (n : Nat) : (d.parkChan n).sites = d.sites := rfl
@[simp] theorem parkChan_dps (n : Nat) : (d.parkChan n).dps = d.dps := rfl
@[simp] theorem parkChan_mem (n : Nat) : (d.parkChan n).mem = d.mem := rfl
@[simp] theorem parkChan_heads (n : Nat) : (d.parkChan n).heads = d.heads := rfl
@[simp] theorem parkChan_boot (n : Nat) : (d.parkChan n).boot = d.boot := rfl
@[simp] theorem parkChan_power (n : Nat) : (d.parkChan n).power = d.power := rfl
@[simp] theorem parkChan_ledger (n : Nat) : (d.parkChan n).ledger = d.ledger := rfl

/-! ## setConv -/

@[simp] theorem setConv_objs (n : Nat) (x : Converted) : (d.setConv n x).objs = d.objs := rfl
@[simp] theorem setConv_cycle (n : Nat) (x : Converted) : (d.setConv n x).cycle = d.cycle := rfl
@[simp] theorem setConv_ringNs (n : Nat) (x : Converted) : (d.setConv n x).ringNs = d.ringNs := rfl
@[simp] theorem setConv_ringFrac (n : Nat) (x : Converted) : (d.setConv n x).ringFrac = d.ringFrac := rfl
@[simp] theorem setConv_steer (n : Nat) (x : Converted) : (d.setConv n x).steer = d.steer := rfl
@[simp] theorem setConv_steerRem (n : Nat) (x : Converted) : (d.setConv n x).steerRem = d.steerRem := rfl
@[simp] theorem setConv_refclk (n : Nat) (x : Converted) : (d.setConv n x).refclk = d.refclk := rfl
@[simp] theorem setConv_relock (n : Nat) (x : Converted) : (d.setConv n x).relock = d.relock := rfl
@[simp] theorem setConv_freeCtr (n : Nat) (x : Converted) : (d.setConv n x).freeCtr = d.freeCtr := rfl
@[simp] theorem setConv_pend (n : Nat) (x : Converted) : (d.setConv n x).pend = d.pend := rfl
@[simp] theorem setConv_ring (n : Nat) (x : Converted) : (d.setConv n x).ring = d.ring := rfl
@[simp] theorem setConv_event (n : Nat) (x : Converted) : (d.setConv n x).event = d.event := rfl
@[simp] theorem setConv_sites (n : Nat) (x : Converted) : (d.setConv n x).sites = d.sites := rfl
@[simp] theorem setConv_dps (n : Nat) (x : Converted) : (d.setConv n x).dps = d.dps := rfl
@[simp] theorem setConv_mem (n : Nat) (x : Converted) : (d.setConv n x).mem = d.mem := rfl
@[simp] theorem setConv_heads (n : Nat) (x : Converted) : (d.setConv n x).heads = d.heads := rfl
@[simp] theorem setConv_boot (n : Nat) (x : Converted) : (d.setConv n x).boot = d.boot := rfl
@[simp] theorem setConv_power (n : Nat) (x : Converted) : (d.setConv n x).power = d.power := rfl
@[simp] theorem setConv_ledger (n : Nat) (x : Converted) : (d.setConv n x).ledger = d.ledger := rfl

/-! ## setDpsConv -/

@[simp] theorem setDpsConv_objs (k : Nat) (x : Converted) : (d.setDpsConv k x).objs = d.objs := rfl
@[simp] theorem setDpsConv_cycle (k : Nat) (x : Converted) : (d.setDpsConv k x).cycle = d.cycle := rfl
@[simp] theorem setDpsConv_ringNs (k : Nat) (x : Converted) : (d.setDpsConv k x).ringNs = d.ringNs := rfl
@[simp] theorem setDpsConv_ringFrac (k : Nat) (x : Converted) : (d.setDpsConv k x).ringFrac = d.ringFrac := rfl
@[simp] theorem setDpsConv_steer (k : Nat) (x : Converted) : (d.setDpsConv k x).steer = d.steer := rfl
@[simp] theorem setDpsConv_steerRem (k : Nat) (x : Converted) : (d.setDpsConv k x).steerRem = d.steerRem := rfl
@[simp] theorem setDpsConv_refclk (k : Nat) (x : Converted) : (d.setDpsConv k x).refclk = d.refclk := rfl
@[simp] theorem setDpsConv_relock (k : Nat) (x : Converted) : (d.setDpsConv k x).relock = d.relock := rfl
@[simp] theorem setDpsConv_freeCtr (k : Nat) (x : Converted) : (d.setDpsConv k x).freeCtr = d.freeCtr := rfl
@[simp] theorem setDpsConv_pend (k : Nat) (x : Converted) : (d.setDpsConv k x).pend = d.pend := rfl
@[simp] theorem setDpsConv_ring (k : Nat) (x : Converted) : (d.setDpsConv k x).ring = d.ring := rfl
@[simp] theorem setDpsConv_event (k : Nat) (x : Converted) : (d.setDpsConv k x).event = d.event := rfl
@[simp] theorem setDpsConv_pins (k : Nat) (x : Converted) : (d.setDpsConv k x).pins = d.pins := rfl
@[simp] theorem setDpsConv_sites (k : Nat) (x : Converted) : (d.setDpsConv k x).sites = d.sites := rfl
@[simp] theorem setDpsConv_mem (k : Nat) (x : Converted) : (d.setDpsConv k x).mem = d.mem := rfl
@[simp] theorem setDpsConv_heads (k : Nat) (x : Converted) : (d.setDpsConv k x).heads = d.heads := rfl
@[simp] theorem setDpsConv_boot (k : Nat) (x : Converted) : (d.setDpsConv k x).boot = d.boot := rfl
@[simp] theorem setDpsConv_power (k : Nat) (x : Converted) : (d.setDpsConv k x).power = d.power := rfl
@[simp] theorem setDpsConv_ledger (k : Nat) (x : Converted) : (d.setDpsConv k x).ledger = d.ledger := rfl

/-! ## setDps -/

@[simp] theorem setDps_objs (k : Nat) (x : DpsChan) : (d.setDps k x).objs = d.objs := rfl
@[simp] theorem setDps_cycle (k : Nat) (x : DpsChan) : (d.setDps k x).cycle = d.cycle := rfl
@[simp] theorem setDps_ringNs (k : Nat) (x : DpsChan) : (d.setDps k x).ringNs = d.ringNs := rfl
@[simp] theorem setDps_ringFrac (k : Nat) (x : DpsChan) : (d.setDps k x).ringFrac = d.ringFrac := rfl
@[simp] theorem setDps_steer (k : Nat) (x : DpsChan) : (d.setDps k x).steer = d.steer := rfl
@[simp] theorem setDps_steerRem (k : Nat) (x : DpsChan) : (d.setDps k x).steerRem = d.steerRem := rfl
@[simp] theorem setDps_refclk (k : Nat) (x : DpsChan) : (d.setDps k x).refclk = d.refclk := rfl
@[simp] theorem setDps_relock (k : Nat) (x : DpsChan) : (d.setDps k x).relock = d.relock := rfl
@[simp] theorem setDps_freeCtr (k : Nat) (x : DpsChan) : (d.setDps k x).freeCtr = d.freeCtr := rfl
@[simp] theorem setDps_pend (k : Nat) (x : DpsChan) : (d.setDps k x).pend = d.pend := rfl
@[simp] theorem setDps_ring (k : Nat) (x : DpsChan) : (d.setDps k x).ring = d.ring := rfl
@[simp] theorem setDps_event (k : Nat) (x : DpsChan) : (d.setDps k x).event = d.event := rfl
@[simp] theorem setDps_pins (k : Nat) (x : DpsChan) : (d.setDps k x).pins = d.pins := rfl
@[simp] theorem setDps_sites (k : Nat) (x : DpsChan) : (d.setDps k x).sites = d.sites := rfl
@[simp] theorem setDps_mem (k : Nat) (x : DpsChan) : (d.setDps k x).mem = d.mem := rfl
@[simp] theorem setDps_heads (k : Nat) (x : DpsChan) : (d.setDps k x).heads = d.heads := rfl
@[simp] theorem setDps_boot (k : Nat) (x : DpsChan) : (d.setDps k x).boot = d.boot := rfl
@[simp] theorem setDps_power (k : Nat) (x : DpsChan) : (d.setDps k x).power = d.power := rfl
@[simp] theorem setDps_ledger (k : Nat) (x : DpsChan) : (d.setDps k x).ledger = d.ledger := rfl

/-! ## setMonV -/

@[simp] theorem setMonV_objs (k : Nat) (x : Monitor) : (d.setMonV k x).objs = d.objs := rfl
@[simp] theorem setMonV_cycle (k : Nat) (x : Monitor) : (d.setMonV k x).cycle = d.cycle := rfl
@[simp] theorem setMonV_ringNs (k : Nat) (x : Monitor) : (d.setMonV k x).ringNs = d.ringNs := rfl
@[simp] theorem setMonV_ringFrac (k : Nat) (x : Monitor) : (d.setMonV k x).ringFrac = d.ringFrac := rfl
@[simp] theorem setMonV_steer (k : Nat) (x : Monitor) : (d.setMonV k x).steer = d.steer := rfl
@[simp] theorem setMonV_steerRem (k : Nat) (x : Monitor) : (d.setMonV k x).steerRem = d.steerRem := rfl
@[simp] theorem setMonV_refclk (k : Nat) (x : Monitor) : (d.setMonV k x).refclk = d.refclk := rfl
@[simp] theorem setMonV_relock (k : Nat) (x : Monitor) : (d.setMonV k x).relock = d.relock := rfl
@[simp] theorem setMonV_freeCtr (k : Nat) (x : Monitor) : (d.setMonV k x).freeCtr = d.freeCtr := rfl
@[simp] theorem setMonV_pend (k : Nat) (x : Monitor) : (d.setMonV k x).pend = d.pend := rfl
@[simp] theorem setMonV_ring (k : Nat) (x : Monitor) : (d.setMonV k x).ring = d.ring := rfl
@[simp] theorem setMonV_event (k : Nat) (x : Monitor) : (d.setMonV k x).event = d.event := rfl
@[simp] theorem setMonV_pins (k : Nat) (x : Monitor) : (d.setMonV k x).pins = d.pins := rfl
@[simp] theorem setMonV_sites (k : Nat) (x : Monitor) : (d.setMonV k x).sites = d.sites := rfl
@[simp] theorem setMonV_mem (k : Nat) (x : Monitor) : (d.setMonV k x).mem = d.mem := rfl
@[simp] theorem setMonV_heads (k : Nat) (x : Monitor) : (d.setMonV k x).heads = d.heads := rfl
@[simp] theorem setMonV_boot (k : Nat) (x : Monitor) : (d.setMonV k x).boot = d.boot := rfl
@[simp] theorem setMonV_power (k : Nat) (x : Monitor) : (d.setMonV k x).power = d.power := rfl
@[simp] theorem setMonV_ledger (k : Nat) (x : Monitor) : (d.setMonV k x).ledger = d.ledger := rfl

/-! ## setMonI -/

@[simp] theorem setMonI_objs (k : Nat) (x : Monitor) : (d.setMonI k x).objs = d.objs := rfl
@[simp] theorem setMonI_cycle (k : Nat) (x : Monitor) : (d.setMonI k x).cycle = d.cycle := rfl
@[simp] theorem setMonI_ringNs (k : Nat) (x : Monitor) : (d.setMonI k x).ringNs = d.ringNs := rfl
@[simp] theorem setMonI_ringFrac (k : Nat) (x : Monitor) : (d.setMonI k x).ringFrac = d.ringFrac := rfl
@[simp] theorem setMonI_steer (k : Nat) (x : Monitor) : (d.setMonI k x).steer = d.steer := rfl
@[simp] theorem setMonI_steerRem (k : Nat) (x : Monitor) : (d.setMonI k x).steerRem = d.steerRem := rfl
@[simp] theorem setMonI_refclk (k : Nat) (x : Monitor) : (d.setMonI k x).refclk = d.refclk := rfl
@[simp] theorem setMonI_relock (k : Nat) (x : Monitor) : (d.setMonI k x).relock = d.relock := rfl
@[simp] theorem setMonI_freeCtr (k : Nat) (x : Monitor) : (d.setMonI k x).freeCtr = d.freeCtr := rfl
@[simp] theorem setMonI_pend (k : Nat) (x : Monitor) : (d.setMonI k x).pend = d.pend := rfl
@[simp] theorem setMonI_ring (k : Nat) (x : Monitor) : (d.setMonI k x).ring = d.ring := rfl
@[simp] theorem setMonI_event (k : Nat) (x : Monitor) : (d.setMonI k x).event = d.event := rfl
@[simp] theorem setMonI_pins (k : Nat) (x : Monitor) : (d.setMonI k x).pins = d.pins := rfl
@[simp] theorem setMonI_sites (k : Nat) (x : Monitor) : (d.setMonI k x).sites = d.sites := rfl
@[simp] theorem setMonI_mem (k : Nat) (x : Monitor) : (d.setMonI k x).mem = d.mem := rfl
@[simp] theorem setMonI_heads (k : Nat) (x : Monitor) : (d.setMonI k x).heads = d.heads := rfl
@[simp] theorem setMonI_boot (k : Nat) (x : Monitor) : (d.setMonI k x).boot = d.boot := rfl
@[simp] theorem setMonI_power (k : Nat) (x : Monitor) : (d.setMonI k x).power = d.power := rfl
@[simp] theorem setMonI_ledger (k : Nat) (x : Monitor) : (d.setMonI k x).ledger = d.ledger := rfl

/-! ## setAcq -/

@[simp] theorem setAcq_objs (c : Nat) (x : Acq) : (d.setAcq c x).objs = d.objs := rfl
@[simp] theorem setAcq_cycle (c : Nat) (x : Acq) : (d.setAcq c x).cycle = d.cycle := rfl
@[simp] theorem setAcq_ringNs (c : Nat) (x : Acq) : (d.setAcq c x).ringNs = d.ringNs := rfl
@[simp] theorem setAcq_ringFrac (c : Nat) (x : Acq) : (d.setAcq c x).ringFrac = d.ringFrac := rfl
@[simp] theorem setAcq_steer (c : Nat) (x : Acq) : (d.setAcq c x).steer = d.steer := rfl
@[simp] theorem setAcq_steerRem (c : Nat) (x : Acq) : (d.setAcq c x).steerRem = d.steerRem := rfl
@[simp] theorem setAcq_refclk (c : Nat) (x : Acq) : (d.setAcq c x).refclk = d.refclk := rfl
@[simp] theorem setAcq_relock (c : Nat) (x : Acq) : (d.setAcq c x).relock = d.relock := rfl
@[simp] theorem setAcq_freeCtr (c : Nat) (x : Acq) : (d.setAcq c x).freeCtr = d.freeCtr := rfl
@[simp] theorem setAcq_pend (c : Nat) (x : Acq) : (d.setAcq c x).pend = d.pend := rfl
@[simp] theorem setAcq_ring (c : Nat) (x : Acq) : (d.setAcq c x).ring = d.ring := rfl
@[simp] theorem setAcq_event (c : Nat) (x : Acq) : (d.setAcq c x).event = d.event := rfl
@[simp] theorem setAcq_pins (c : Nat) (x : Acq) : (d.setAcq c x).pins = d.pins := rfl
@[simp] theorem setAcq_sites (c : Nat) (x : Acq) : (d.setAcq c x).sites = d.sites := rfl
@[simp] theorem setAcq_mem (c : Nat) (x : Acq) : (d.setAcq c x).mem = d.mem := rfl
@[simp] theorem setAcq_heads (c : Nat) (x : Acq) : (d.setAcq c x).heads = d.heads := rfl
@[simp] theorem setAcq_boot (c : Nat) (x : Acq) : (d.setAcq c x).boot = d.boot := rfl
@[simp] theorem setAcq_power (c : Nat) (x : Acq) : (d.setAcq c x).power = d.power := rfl
@[simp] theorem setAcq_ledger (c : Nat) (x : Acq) : (d.setAcq c x).ledger = d.ledger := rfl

/-! ## setSub -/

@[simp] theorem setSub_objs (j : Nat) (x : SubState) : (d.setSub j x).objs = d.objs := rfl
@[simp] theorem setSub_cycle (j : Nat) (x : SubState) : (d.setSub j x).cycle = d.cycle := rfl
@[simp] theorem setSub_ringNs (j : Nat) (x : SubState) : (d.setSub j x).ringNs = d.ringNs := rfl
@[simp] theorem setSub_ringFrac (j : Nat) (x : SubState) : (d.setSub j x).ringFrac = d.ringFrac := rfl
@[simp] theorem setSub_steer (j : Nat) (x : SubState) : (d.setSub j x).steer = d.steer := rfl
@[simp] theorem setSub_steerRem (j : Nat) (x : SubState) : (d.setSub j x).steerRem = d.steerRem := rfl
@[simp] theorem setSub_refclk (j : Nat) (x : SubState) : (d.setSub j x).refclk = d.refclk := rfl
@[simp] theorem setSub_relock (j : Nat) (x : SubState) : (d.setSub j x).relock = d.relock := rfl
@[simp] theorem setSub_freeCtr (j : Nat) (x : SubState) : (d.setSub j x).freeCtr = d.freeCtr := rfl
@[simp] theorem setSub_pend (j : Nat) (x : SubState) : (d.setSub j x).pend = d.pend := rfl
@[simp] theorem setSub_ring (j : Nat) (x : SubState) : (d.setSub j x).ring = d.ring := rfl
@[simp] theorem setSub_event (j : Nat) (x : SubState) : (d.setSub j x).event = d.event := rfl
@[simp] theorem setSub_pins (j : Nat) (x : SubState) : (d.setSub j x).pins = d.pins := rfl
@[simp] theorem setSub_sites (j : Nat) (x : SubState) : (d.setSub j x).sites = d.sites := rfl
@[simp] theorem setSub_dps (j : Nat) (x : SubState) : (d.setSub j x).dps = d.dps := rfl
@[simp] theorem setSub_heads (j : Nat) (x : SubState) : (d.setSub j x).heads = d.heads := rfl
@[simp] theorem setSub_boot (j : Nat) (x : SubState) : (d.setSub j x).boot = d.boot := rfl
@[simp] theorem setSub_power (j : Nat) (x : SubState) : (d.setSub j x).power = d.power := rfl
@[simp] theorem setSub_ledger (j : Nat) (x : SubState) : (d.setSub j x).ledger = d.ledger := rfl

/-! ## setQueue -/

@[simp] theorem setQueue_objs (q : Nat) (x : QueueState) : (d.setQueue q x).objs = d.objs := rfl
@[simp] theorem setQueue_cycle (q : Nat) (x : QueueState) : (d.setQueue q x).cycle = d.cycle := rfl
@[simp] theorem setQueue_ringNs (q : Nat) (x : QueueState) : (d.setQueue q x).ringNs = d.ringNs := rfl
@[simp] theorem setQueue_ringFrac (q : Nat) (x : QueueState) : (d.setQueue q x).ringFrac = d.ringFrac := rfl
@[simp] theorem setQueue_steer (q : Nat) (x : QueueState) : (d.setQueue q x).steer = d.steer := rfl
@[simp] theorem setQueue_steerRem (q : Nat) (x : QueueState) : (d.setQueue q x).steerRem = d.steerRem := rfl
@[simp] theorem setQueue_refclk (q : Nat) (x : QueueState) : (d.setQueue q x).refclk = d.refclk := rfl
@[simp] theorem setQueue_relock (q : Nat) (x : QueueState) : (d.setQueue q x).relock = d.relock := rfl
@[simp] theorem setQueue_freeCtr (q : Nat) (x : QueueState) : (d.setQueue q x).freeCtr = d.freeCtr := rfl
@[simp] theorem setQueue_pend (q : Nat) (x : QueueState) : (d.setQueue q x).pend = d.pend := rfl
@[simp] theorem setQueue_ring (q : Nat) (x : QueueState) : (d.setQueue q x).ring = d.ring := rfl
@[simp] theorem setQueue_event (q : Nat) (x : QueueState) : (d.setQueue q x).event = d.event := rfl
@[simp] theorem setQueue_pins (q : Nat) (x : QueueState) : (d.setQueue q x).pins = d.pins := rfl
@[simp] theorem setQueue_sites (q : Nat) (x : QueueState) : (d.setQueue q x).sites = d.sites := rfl
@[simp] theorem setQueue_dps (q : Nat) (x : QueueState) : (d.setQueue q x).dps = d.dps := rfl
@[simp] theorem setQueue_heads (q : Nat) (x : QueueState) : (d.setQueue q x).heads = d.heads := rfl
@[simp] theorem setQueue_boot (q : Nat) (x : QueueState) : (d.setQueue q x).boot = d.boot := rfl
@[simp] theorem setQueue_power (q : Nat) (x : QueueState) : (d.setQueue q x).power = d.power := rfl
@[simp] theorem setQueue_ledger (q : Nat) (x : QueueState) : (d.setQueue q x).ledger = d.ledger := rfl

/-! ## setHead -/

@[simp] theorem setHead_objs (h : Nat) (x : HeadState) : (d.setHead h x).objs = d.objs := rfl
@[simp] theorem setHead_cycle (h : Nat) (x : HeadState) : (d.setHead h x).cycle = d.cycle := rfl
@[simp] theorem setHead_ringNs (h : Nat) (x : HeadState) : (d.setHead h x).ringNs = d.ringNs := rfl
@[simp] theorem setHead_ringFrac (h : Nat) (x : HeadState) : (d.setHead h x).ringFrac = d.ringFrac := rfl
@[simp] theorem setHead_steer (h : Nat) (x : HeadState) : (d.setHead h x).steer = d.steer := rfl
@[simp] theorem setHead_steerRem (h : Nat) (x : HeadState) : (d.setHead h x).steerRem = d.steerRem := rfl
@[simp] theorem setHead_refclk (h : Nat) (x : HeadState) : (d.setHead h x).refclk = d.refclk := rfl
@[simp] theorem setHead_relock (h : Nat) (x : HeadState) : (d.setHead h x).relock = d.relock := rfl
@[simp] theorem setHead_freeCtr (h : Nat) (x : HeadState) : (d.setHead h x).freeCtr = d.freeCtr := rfl
@[simp] theorem setHead_pend (h : Nat) (x : HeadState) : (d.setHead h x).pend = d.pend := rfl
@[simp] theorem setHead_ring (h : Nat) (x : HeadState) : (d.setHead h x).ring = d.ring := rfl
@[simp] theorem setHead_event (h : Nat) (x : HeadState) : (d.setHead h x).event = d.event := rfl
@[simp] theorem setHead_pins (h : Nat) (x : HeadState) : (d.setHead h x).pins = d.pins := rfl
@[simp] theorem setHead_sites (h : Nat) (x : HeadState) : (d.setHead h x).sites = d.sites := rfl
@[simp] theorem setHead_dps (h : Nat) (x : HeadState) : (d.setHead h x).dps = d.dps := rfl
@[simp] theorem setHead_mem (h : Nat) (x : HeadState) : (d.setHead h x).mem = d.mem := rfl
@[simp] theorem setHead_boot (h : Nat) (x : HeadState) : (d.setHead h x).boot = d.boot := rfl
@[simp] theorem setHead_power (h : Nat) (x : HeadState) : (d.setHead h x).power = d.power := rfl
@[simp] theorem setHead_ledger (h : Nat) (x : HeadState) : (d.setHead h x).ledger = d.ledger := rfl

/-! ## setCal -/

@[simp] theorem setCal_objs (t : Nat) (x : Cal) : (d.setCal t x).objs = d.objs := rfl
@[simp] theorem setCal_cycle (t : Nat) (x : Cal) : (d.setCal t x).cycle = d.cycle := rfl
@[simp] theorem setCal_ringNs (t : Nat) (x : Cal) : (d.setCal t x).ringNs = d.ringNs := rfl
@[simp] theorem setCal_ringFrac (t : Nat) (x : Cal) : (d.setCal t x).ringFrac = d.ringFrac := rfl
@[simp] theorem setCal_steer (t : Nat) (x : Cal) : (d.setCal t x).steer = d.steer := rfl
@[simp] theorem setCal_steerRem (t : Nat) (x : Cal) : (d.setCal t x).steerRem = d.steerRem := rfl
@[simp] theorem setCal_refclk (t : Nat) (x : Cal) : (d.setCal t x).refclk = d.refclk := rfl
@[simp] theorem setCal_relock (t : Nat) (x : Cal) : (d.setCal t x).relock = d.relock := rfl
@[simp] theorem setCal_freeCtr (t : Nat) (x : Cal) : (d.setCal t x).freeCtr = d.freeCtr := rfl
@[simp] theorem setCal_pend (t : Nat) (x : Cal) : (d.setCal t x).pend = d.pend := rfl
@[simp] theorem setCal_ring (t : Nat) (x : Cal) : (d.setCal t x).ring = d.ring := rfl
@[simp] theorem setCal_event (t : Nat) (x : Cal) : (d.setCal t x).event = d.event := rfl
@[simp] theorem setCal_pins (t : Nat) (x : Cal) : (d.setCal t x).pins = d.pins := rfl
@[simp] theorem setCal_sites (t : Nat) (x : Cal) : (d.setCal t x).sites = d.sites := rfl
@[simp] theorem setCal_dps (t : Nat) (x : Cal) : (d.setCal t x).dps = d.dps := rfl
@[simp] theorem setCal_mem (t : Nat) (x : Cal) : (d.setCal t x).mem = d.mem := rfl
@[simp] theorem setCal_heads (t : Nat) (x : Cal) : (d.setCal t x).heads = d.heads := rfl
@[simp] theorem setCal_boot (t : Nat) (x : Cal) : (d.setCal t x).boot = d.boot := rfl
@[simp] theorem setCal_ledger (t : Nat) (x : Cal) : (d.setCal t x).ledger = d.ledger := rfl

/-! ## setBank -/

@[simp] theorem setBank_objs (b : Nat) (x : Bank) : (d.setBank b x).objs = d.objs := rfl
@[simp] theorem setBank_cycle (b : Nat) (x : Bank) : (d.setBank b x).cycle = d.cycle := rfl
@[simp] theorem setBank_ringNs (b : Nat) (x : Bank) : (d.setBank b x).ringNs = d.ringNs := rfl
@[simp] theorem setBank_ringFrac (b : Nat) (x : Bank) : (d.setBank b x).ringFrac = d.ringFrac := rfl
@[simp] theorem setBank_steer (b : Nat) (x : Bank) : (d.setBank b x).steer = d.steer := rfl
@[simp] theorem setBank_steerRem (b : Nat) (x : Bank) : (d.setBank b x).steerRem = d.steerRem := rfl
@[simp] theorem setBank_refclk (b : Nat) (x : Bank) : (d.setBank b x).refclk = d.refclk := rfl
@[simp] theorem setBank_relock (b : Nat) (x : Bank) : (d.setBank b x).relock = d.relock := rfl
@[simp] theorem setBank_freeCtr (b : Nat) (x : Bank) : (d.setBank b x).freeCtr = d.freeCtr := rfl
@[simp] theorem setBank_pend (b : Nat) (x : Bank) : (d.setBank b x).pend = d.pend := rfl
@[simp] theorem setBank_ring (b : Nat) (x : Bank) : (d.setBank b x).ring = d.ring := rfl
@[simp] theorem setBank_pins (b : Nat) (x : Bank) : (d.setBank b x).pins = d.pins := rfl
@[simp] theorem setBank_sites (b : Nat) (x : Bank) : (d.setBank b x).sites = d.sites := rfl
@[simp] theorem setBank_dps (b : Nat) (x : Bank) : (d.setBank b x).dps = d.dps := rfl
@[simp] theorem setBank_mem (b : Nat) (x : Bank) : (d.setBank b x).mem = d.mem := rfl
@[simp] theorem setBank_heads (b : Nat) (x : Bank) : (d.setBank b x).heads = d.heads := rfl
@[simp] theorem setBank_boot (b : Nat) (x : Bank) : (d.setBank b x).boot = d.boot := rfl
@[simp] theorem setBank_power (b : Nat) (x : Bank) : (d.setBank b x).power = d.power := rfl
@[simp] theorem setBank_ledger (b : Nat) (x : Bank) : (d.setBank b x).ledger = d.ledger := rfl

/-! ## each -/

/-- What each application of `f` keeps, all of them keep. -/
theorem each_keep {β : Type} (p : Device → β) {f : Nat → Device → Device} (h : ∀ n e, p (f n e) = p e) (ns : List Nat) (d : Device) :
    p (each f ns d) = p d := by
  induction ns generalizing d with
  | nil => rfl
  | cons n l ih => exact (ih _).trans (h n d)

/-- A relation that each application of `f` to a number of the list keeps, all of them keep. -/
theorem each_inv {P : Device → Prop} {f : Nat → Device → Device} {ns : List Nat} (h : ∀ n ∈ ns, ∀ e, P e → P (f n e)) {d : Device}
    (hd : P d) : P (each f ns d) := by
  induction ns generalizing d with
  | nil => exact hd
  | cons n l ih => exact ih (fun m hm => h m (List.mem_cons_of_mem _ hm)) (h n (List.mem_cons_self ..) d hd)

/-! ## stage -/

@[simp] theorem stage_cycle (ks : List Nat) : (stage ks d).cycle = d.cycle := each_keep _ (fun _ _ => put_cycle _ _ _) _ _
@[simp] theorem stage_ringNs (ks : List Nat) : (stage ks d).ringNs = d.ringNs := each_keep _ (fun _ _ => put_ringNs _ _ _) _ _
@[simp] theorem stage_ringFrac (ks : List Nat) : (stage ks d).ringFrac = d.ringFrac := each_keep _ (fun _ _ => put_ringFrac _ _ _) _ _
@[simp] theorem stage_steer (ks : List Nat) : (stage ks d).steer = d.steer := each_keep _ (fun _ _ => put_steer _ _ _) _ _
@[simp] theorem stage_steerRem (ks : List Nat) : (stage ks d).steerRem = d.steerRem := each_keep _ (fun _ _ => put_steerRem _ _ _) _ _
@[simp] theorem stage_refclk (ks : List Nat) : (stage ks d).refclk = d.refclk := each_keep _ (fun _ _ => put_refclk _ _ _) _ _
@[simp] theorem stage_relock (ks : List Nat) : (stage ks d).relock = d.relock := each_keep _ (fun _ _ => put_relock _ _ _) _ _
@[simp] theorem stage_freeCtr (ks : List Nat) : (stage ks d).freeCtr = d.freeCtr := each_keep _ (fun _ _ => put_freeCtr _ _ _) _ _
@[simp] theorem stage_pend (ks : List Nat) : (stage ks d).pend = d.pend := each_keep _ (fun _ _ => put_pend _ _ _) _ _
@[simp] theorem stage_ring (ks : List Nat) : (stage ks d).ring = d.ring := each_keep _ (fun _ _ => put_ring _ _ _) _ _
@[simp] theorem stage_event (ks : List Nat) : (stage ks d).event = d.event := each_keep _ (fun _ _ => put_event _ _ _) _ _
@[simp] theorem stage_pins (ks : List Nat) : (stage ks d).pins = d.pins := each_keep _ (fun _ _ => put_pins _ _ _) _ _
@[simp] theorem stage_sites (ks : List Nat) : (stage ks d).sites = d.sites := each_keep _ (fun _ _ => put_sites _ _ _) _ _
@[simp] theorem stage_dps (ks : List Nat) : (stage ks d).dps = d.dps := each_keep _ (fun _ _ => put_dps _ _ _) _ _
@[simp] theorem stage_mem (ks : List Nat) : (stage ks d).mem = d.mem := each_keep _ (fun _ _ => put_mem _ _ _) _ _
@[simp] theorem stage_heads (ks : List Nat) : (stage ks d).heads = d.heads := each_keep _ (fun _ _ => put_heads _ _ _) _ _
@[simp] theorem stage_boot (ks : List Nat) : (stage ks d).boot = d.boot := each_keep _ (fun _ _ => put_boot _ _ _) _ _
@[simp] theorem stage_power (ks : List Nat) : (stage ks d).power = d.power := each_keep _ (fun _ _ => put_power _ _ _) _ _
@[simp] theorem stage_ledger (ks : List Nat) : (stage ks d).ledger = d.ledger := each_keep _ (fun _ _ => put_ledger _ _ _) _ _

/-! ## unstage -/

@[simp] theorem unstage_cycle (ks : List Nat) : (unstage ks d).cycle = d.cycle := each_keep _ (fun _ _ => put_cycle _ _ _) _ _
@[simp] theorem unstage_ringNs (ks : List Nat) : (unstage ks d).ringNs = d.ringNs := each_keep _ (fun _ _ => put_ringNs _ _ _) _ _
@[simp] theorem unstage_ringFrac (ks : List Nat) : (unstage ks d).ringFrac = d.ringFrac := each_keep _ (fun _ _ => put_ringFrac _ _ _) _ _
@[simp] theorem unstage_steer (ks : List Nat) : (unstage ks d).steer = d.steer := each_keep _ (fun _ _ => put_steer _ _ _) _ _
@[simp] theorem unstage_steerRem (ks : List Nat) : (unstage ks d).steerRem = d.steerRem := each_keep _ (fun _ _ => put_steerRem _ _ _) _ _
@[simp] theorem unstage_refclk (ks : List Nat) : (unstage ks d).refclk = d.refclk := each_keep _ (fun _ _ => put_refclk _ _ _) _ _
@[simp] theorem unstage_relock (ks : List Nat) : (unstage ks d).relock = d.relock := each_keep _ (fun _ _ => put_relock _ _ _) _ _
@[simp] theorem unstage_freeCtr (ks : List Nat) : (unstage ks d).freeCtr = d.freeCtr := each_keep _ (fun _ _ => put_freeCtr _ _ _) _ _
@[simp] theorem unstage_pend (ks : List Nat) : (unstage ks d).pend = d.pend := each_keep _ (fun _ _ => put_pend _ _ _) _ _
@[simp] theorem unstage_ring (ks : List Nat) : (unstage ks d).ring = d.ring := each_keep _ (fun _ _ => put_ring _ _ _) _ _
@[simp] theorem unstage_event (ks : List Nat) : (unstage ks d).event = d.event := each_keep _ (fun _ _ => put_event _ _ _) _ _
@[simp] theorem unstage_pins (ks : List Nat) : (unstage ks d).pins = d.pins := each_keep _ (fun _ _ => put_pins _ _ _) _ _
@[simp] theorem unstage_sites (ks : List Nat) : (unstage ks d).sites = d.sites := each_keep _ (fun _ _ => put_sites _ _ _) _ _
@[simp] theorem unstage_dps (ks : List Nat) : (unstage ks d).dps = d.dps := each_keep _ (fun _ _ => put_dps _ _ _) _ _
@[simp] theorem unstage_mem (ks : List Nat) : (unstage ks d).mem = d.mem := each_keep _ (fun _ _ => put_mem _ _ _) _ _
@[simp] theorem unstage_heads (ks : List Nat) : (unstage ks d).heads = d.heads := each_keep _ (fun _ _ => put_heads _ _ _) _ _
@[simp] theorem unstage_boot (ks : List Nat) : (unstage ks d).boot = d.boot := each_keep _ (fun _ _ => put_boot _ _ _) _ _
@[simp] theorem unstage_power (ks : List Nat) : (unstage ks d).power = d.power := each_keep _ (fun _ _ => put_power _ _ _) _ _
@[simp] theorem unstage_ledger (ks : List Nat) : (unstage ks d).ledger = d.ledger := each_keep _ (fun _ _ => put_ledger _ _ _) _ _

/-! ## activate -/

@[simp] theorem activate_cycle (ks : List Nat) : (activate ks d).cycle = d.cycle := each_keep _ (fun _ _ => put_cycle _ _ _) _ _
@[simp] theorem activate_ringNs (ks : List Nat) : (activate ks d).ringNs = d.ringNs := each_keep _ (fun _ _ => put_ringNs _ _ _) _ _
@[simp] theorem activate_ringFrac (ks : List Nat) : (activate ks d).ringFrac = d.ringFrac := each_keep _ (fun _ _ => put_ringFrac _ _ _) _ _
@[simp] theorem activate_steer (ks : List Nat) : (activate ks d).steer = d.steer := each_keep _ (fun _ _ => put_steer _ _ _) _ _
@[simp] theorem activate_steerRem (ks : List Nat) : (activate ks d).steerRem = d.steerRem := each_keep _ (fun _ _ => put_steerRem _ _ _) _ _
@[simp] theorem activate_refclk (ks : List Nat) : (activate ks d).refclk = d.refclk := each_keep _ (fun _ _ => put_refclk _ _ _) _ _
@[simp] theorem activate_relock (ks : List Nat) : (activate ks d).relock = d.relock := each_keep _ (fun _ _ => put_relock _ _ _) _ _
@[simp] theorem activate_freeCtr (ks : List Nat) : (activate ks d).freeCtr = d.freeCtr := each_keep _ (fun _ _ => put_freeCtr _ _ _) _ _
@[simp] theorem activate_pend (ks : List Nat) : (activate ks d).pend = d.pend := each_keep _ (fun _ _ => put_pend _ _ _) _ _
@[simp] theorem activate_ring (ks : List Nat) : (activate ks d).ring = d.ring := each_keep _ (fun _ _ => put_ring _ _ _) _ _
@[simp] theorem activate_event (ks : List Nat) : (activate ks d).event = d.event := each_keep _ (fun _ _ => put_event _ _ _) _ _
@[simp] theorem activate_pins (ks : List Nat) : (activate ks d).pins = d.pins := each_keep _ (fun _ _ => put_pins _ _ _) _ _
@[simp] theorem activate_sites (ks : List Nat) : (activate ks d).sites = d.sites := each_keep _ (fun _ _ => put_sites _ _ _) _ _
@[simp] theorem activate_dps (ks : List Nat) : (activate ks d).dps = d.dps := each_keep _ (fun _ _ => put_dps _ _ _) _ _
@[simp] theorem activate_mem (ks : List Nat) : (activate ks d).mem = d.mem := each_keep _ (fun _ _ => put_mem _ _ _) _ _
@[simp] theorem activate_heads (ks : List Nat) : (activate ks d).heads = d.heads := each_keep _ (fun _ _ => put_heads _ _ _) _ _
@[simp] theorem activate_boot (ks : List Nat) : (activate ks d).boot = d.boot := each_keep _ (fun _ _ => put_boot _ _ _) _ _
@[simp] theorem activate_power (ks : List Nat) : (activate ks d).power = d.power := each_keep _ (fun _ _ => put_power _ _ _) _ _
@[simp] theorem activate_ledger (ks : List Nat) : (activate ks d).ledger = d.ledger := each_keep _ (fun _ _ => put_ledger _ _ _) _ _

/-! ## parkChans -/

@[simp] theorem parkChans_objs (ns : List Nat) : (parkChans ns d).objs = d.objs := each_keep _ (fun _ _ => parkChan_objs _ _) _ _
@[simp] theorem parkChans_cycle (ns : List Nat) : (parkChans ns d).cycle = d.cycle := each_keep _ (fun _ _ => parkChan_cycle _ _) _ _
@[simp] theorem parkChans_ringNs (ns : List Nat) : (parkChans ns d).ringNs = d.ringNs := each_keep _ (fun _ _ => parkChan_ringNs _ _) _ _
@[simp] theorem parkChans_ringFrac (ns : List Nat) : (parkChans ns d).ringFrac = d.ringFrac := each_keep _ (fun _ _ => parkChan_ringFrac _ _) _ _
@[simp] theorem parkChans_steer (ns : List Nat) : (parkChans ns d).steer = d.steer := each_keep _ (fun _ _ => parkChan_steer _ _) _ _
@[simp] theorem parkChans_steerRem (ns : List Nat) : (parkChans ns d).steerRem = d.steerRem := each_keep _ (fun _ _ => parkChan_steerRem _ _) _ _
@[simp] theorem parkChans_refclk (ns : List Nat) : (parkChans ns d).refclk = d.refclk := each_keep _ (fun _ _ => parkChan_refclk _ _) _ _
@[simp] theorem parkChans_relock (ns : List Nat) : (parkChans ns d).relock = d.relock := each_keep _ (fun _ _ => parkChan_relock _ _) _ _
@[simp] theorem parkChans_freeCtr (ns : List Nat) : (parkChans ns d).freeCtr = d.freeCtr := each_keep _ (fun _ _ => parkChan_freeCtr _ _) _ _
@[simp] theorem parkChans_pend (ns : List Nat) : (parkChans ns d).pend = d.pend := each_keep _ (fun _ _ => parkChan_pend _ _) _ _
@[simp] theorem parkChans_ring (ns : List Nat) : (parkChans ns d).ring = d.ring := each_keep _ (fun _ _ => parkChan_ring _ _) _ _
@[simp] theorem parkChans_event (ns : List Nat) : (parkChans ns d).event = d.event := each_keep _ (fun _ _ => parkChan_event _ _) _ _
@[simp] theorem parkChans_sites (ns : List Nat) : (parkChans ns d).sites = d.sites := each_keep _ (fun _ _ => parkChan_sites _ _) _ _
@[simp] theorem parkChans_dps (ns : List Nat) : (parkChans ns d).dps = d.dps := each_keep _ (fun _ _ => parkChan_dps _ _) _ _
@[simp] theorem parkChans_mem (ns : List Nat) : (parkChans ns d).mem = d.mem := each_keep _ (fun _ _ => parkChan_mem _ _) _ _
@[simp] theorem parkChans_heads (ns : List Nat) : (parkChans ns d).heads = d.heads := each_keep _ (fun _ _ => parkChan_heads _ _) _ _
@[simp] theorem parkChans_boot (ns : List Nat) : (parkChans ns d).boot = d.boot := each_keep _ (fun _ _ => parkChan_boot _ _) _ _
@[simp] theorem parkChans_power (ns : List Nat) : (parkChans ns d).power = d.power := each_keep _ (fun _ _ => parkChan_power _ _) _ _
@[simp] theorem parkChans_ledger (ns : List Nat) : (parkChans ns d).ledger = d.ledger := each_keep _ (fun _ _ => parkChan_ledger _ _) _ _

/-! ## Reading the register file -/

@[simp] theorem get_put (k v : Nat) : (d.put k v).get k = v := Cells.read_write_same _ _ _ _

theorem get_put_ne {j k : Nat} (h : j ≠ k) (v : Nat) : (d.put k v).get j = d.get j := Cells.read_write_other h _ _ _ _

theorem get_put_eq (j k v : Nat) : (d.put k v).get j = if j = k then v else d.get j := by
  split
  · next h => subst h; simp
  · next h => exact get_put_ne d h v

/-- What the register file holds depends on nothing else of the block. -/
theorem get_congr {d e : Device} (h : d.objs = e.objs) (k : Nat) : d.get k = e.get k := by simp [get, h]

@[simp] theorem o_w (ix sub v : Nat) : (d.w ix sub v).o ix sub = v := get_put d _ _

theorem o_w_ne {ix sub ix' sub' : Nat} (h : okey ix' sub' ≠ okey ix sub) (v : Nat) : (d.w ix sub v).o ix' sub' = d.o ix' sub' :=
  get_put_ne d h v

theorem get_w_eq (j ix sub v : Nat) : (d.w ix sub v).get j = if j = okey ix sub then v else d.get j := get_put_eq d j _ v

/-- Two objects of one number are one object. -/
theorem okey_inj {ix ix' sub sub' : Nat} (h : sub < 256) (h' : sub' < 256) (e : okey ix sub = okey ix' sub') : ix = ix' ∧ sub = sub' := by
  unfold okey at e
  omega

/-! ## Reading a per-unit record -/

@[simp] theorem seqOf_setSeq (i : Nat) (x : Seq) : (d.setSeq i x).seqOf i = x := Cells.read_write_same _ _ _ _
theorem seqOf_setSeq_ne {i j : Nat} (h : j ≠ i) (x : Seq) : (d.setSeq i x).seqOf j = d.seqOf j := Cells.read_write_other h _ _ _ _
@[simp] theorem streamOf_setStream (i : Nat) (x : Stream) : (d.setStream i x).streamOf i = x := Cells.read_write_same _ _ _ _
theorem streamOf_setStream_ne {i j : Nat} (h : j ≠ i) (x : Stream) : (d.setStream i x).streamOf j = d.streamOf j := Cells.read_write_other h _ _ _ _
@[simp] theorem flowOf_setFlow (i : Nat) (x : Flow) : (d.setFlow i x).flowOf i = x := Cells.read_write_same _ _ _ _
theorem flowOf_setFlow_ne {i j : Nat} (h : j ≠ i) (x : Flow) : (d.setFlow i x).flowOf j = d.flowOf j := Cells.read_write_other h _ _ _ _
@[simp] theorem dacOf_setDac (i : Nat) (x : Dac) : (d.setDac i x).dacOf i = x := Cells.read_write_same _ _ _ _
theorem dacOf_setDac_ne {i j : Nat} (h : j ≠ i) (x : Dac) : (d.setDac i x).dacOf j = d.dacOf j := Cells.read_write_other h _ _ _ _
@[simp] theorem pinOf_setPin (i : Nat) (x : Pin) : (d.setPin i x).pinOf i = x := Cells.read_write_same _ _ _ _
theorem pinOf_setPin_ne {i j : Nat} (h : j ≠ i) (x : Pin) : (d.setPin i x).pinOf j = d.pinOf j := Cells.read_write_other h _ _ _ _
@[simp] theorem chanMon_setChanMon (i : Nat) (x : Monitor) : (d.setChanMon i x).chanMon i = x := Cells.read_write_same _ _ _ _
theorem chanMon_setChanMon_ne {i j : Nat} (h : j ≠ i) (x : Monitor) : (d.setChanMon i x).chanMon j = d.chanMon j := Cells.read_write_other h _ _ _ _
@[simp] theorem tmuOf_setTmu (i : Nat) (x : Tmu) : (d.setTmu i x).tmuOf i = x := Cells.read_write_same _ _ _ _
theorem tmuOf_setTmu_ne {i j : Nat} (h : j ≠ i) (x : Tmu) : (d.setTmu i x).tmuOf j = d.tmuOf j := Cells.read_write_other h _ _ _ _
@[simp] theorem convOf_setConv (i : Nat) (x : Converted) : (d.setConv i x).convOf i = x := Cells.read_write_same _ _ _ _
theorem convOf_setConv_ne {i j : Nat} (h : j ≠ i) (x : Converted) : (d.setConv i x).convOf j = d.convOf j := Cells.read_write_other h _ _ _ _
@[simp] theorem dpsConvOf_setDpsConv (i : Nat) (x : Converted) : (d.setDpsConv i x).dpsConvOf i = x := Cells.read_write_same _ _ _ _
theorem dpsConvOf_setDpsConv_ne {i j : Nat} (h : j ≠ i) (x : Converted) : (d.setDpsConv i x).dpsConvOf j = d.dpsConvOf j := Cells.read_write_other h _ _ _ _
@[simp] theorem dpsOf_setDps (i : Nat) (x : DpsChan) : (d.setDps i x).dpsOf i = x := Cells.read_write_same _ _ _ _
theorem dpsOf_setDps_ne {i j : Nat} (h : j ≠ i) (x : DpsChan) : (d.setDps i x).dpsOf j = d.dpsOf j := Cells.read_write_other h _ _ _ _
@[simp] theorem monV_setMonV (i : Nat) (x : Monitor) : (d.setMonV i x).monV i = x := Cells.read_write_same _ _ _ _
theorem monV_setMonV_ne {i j : Nat} (h : j ≠ i) (x : Monitor) : (d.setMonV i x).monV j = d.monV j := Cells.read_write_other h _ _ _ _
@[simp] theorem monI_setMonI (i : Nat) (x : Monitor) : (d.setMonI i x).monI i = x := Cells.read_write_same _ _ _ _
theorem monI_setMonI_ne {i j : Nat} (h : j ≠ i) (x : Monitor) : (d.setMonI i x).monI j = d.monI j := Cells.read_write_other h _ _ _ _
@[simp] theorem acqOf_setAcq (i : Nat) (x : Acq) : (d.setAcq i x).acqOf i = x := Cells.read_write_same _ _ _ _
theorem acqOf_setAcq_ne {i j : Nat} (h : j ≠ i) (x : Acq) : (d.setAcq i x).acqOf j = d.acqOf j := Cells.read_write_other h _ _ _ _
@[simp] theorem subOf_setSub (i : Nat) (x : SubState) : (d.setSub i x).subOf i = x := Cells.read_write_same _ _ _ _
theorem subOf_setSub_ne {i j : Nat} (h : j ≠ i) (x : SubState) : (d.setSub i x).subOf j = d.subOf j := Cells.read_write_other h _ _ _ _
@[simp] theorem queueOf_setQueue (i : Nat) (x : QueueState) : (d.setQueue i x).queueOf i = x := Cells.read_write_same _ _ _ _
theorem queueOf_setQueue_ne {i j : Nat} (h : j ≠ i) (x : QueueState) : (d.setQueue i x).queueOf j = d.queueOf j := Cells.read_write_other h _ _ _ _
@[simp] theorem headOf_setHead (i : Nat) (x : HeadState) : (d.setHead i x).headOf i = x := Cells.read_write_same _ _ _ _
theorem headOf_setHead_ne {i j : Nat} (h : j ≠ i) (x : HeadState) : (d.setHead i x).headOf j = d.headOf j := Cells.read_write_other h _ _ _ _
@[simp] theorem calOf_setCal (i : Nat) (x : Cal) : (d.setCal i x).calOf i = x := Cells.read_write_same _ _ _ _
theorem calOf_setCal_ne {i j : Nat} (h : j ≠ i) (x : Cal) : (d.setCal i x).calOf j = d.calOf j := Cells.read_write_other h _ _ _ _
@[simp] theorem bankOf_setBank (i : Nat) (x : Bank) : (d.setBank i x).bankOf i = x := Cells.read_write_same _ _ _ _
theorem bankOf_setBank_ne {i j : Nat} (h : j ≠ i) (x : Bank) : (d.setBank i x).bankOf j = d.bankOf j := Cells.read_write_other h _ _ _ _

end Sys2Proof.Machine.Device
end

