-- ==== Sys2Proof/Laws/Ops.lean ====
section
/-!
SUPPORT. What the shared operations can do: the outcome of a command, host writes, the staged settings and their commit, and
updates of the register file alone.
-/
namespace Sys2Proof.Machine

/-- While the part runs, a command that leaves the boot record alone goes on with exactly the block it computes. -/
theorem nextDev_next {s : State} {d : Device} (h : s.running) (hb : d.boot = s.dev.boot) :
    nextDev s d = .next { s with dev := d } := by
  unfold State.running at h
  unfold nextDev
  rw [if_neg (by rw [h]; exact Bool.false_ne_true)]
  congr 2
  have : d.boot.held = false := by rw [hb]; exact h
  cases d with
  | mk objs cycle ringNs ringFrac steer steerRem refclk relock freeCtr pend ring event pins sites dps mem heads boot power ledger =>
    cases boot
    simp_all

/-- While the part runs, a command goes on with the block it computes, not held in reset. -/
theorem nextDev_running {s : State} (h : s.running) (d : Device) :
    nextDev s d = .next { s with dev := { d with boot := { d.boot with held := false } } } := by
  unfold State.running at h
  unfold nextDev
  rw [if_neg (by rw [h]; exact Bool.false_ne_true)]

/-- A command other than the resets goes on with the queue as it is. -/
theorem nextDev_goes (s : State) (d : Device) : ∃ t, nextDev s d = .next t ∧ t.pending = s.pending := ⟨_, rfl, rfl⟩

/-- While PORST_N is low a command changes nothing (R388). -/
theorem nextDev_held {s : State} (h : s.dev.boot.held = true) (d : Device) : nextDev s d = .next s := by
  unfold nextDev
  rw [if_pos h]

namespace Device

variable (d : Device)

/-- What the register file holds, with the boot record changed. -/
@[simp] theorem get_boot (b : BootState) (k : Nat) : ({ d with boot := b } : Device).get k = d.get k := rfl

/-- An accepted host write has its effect. -/
theorem hostWrite_accepts {p : Port} {ix sub v : Nat} {forbidden : Bool} (h : d.accepts p ix sub v forbidden)
    (effect : Device → Device) : d.hostWrite p ix sub v forbidden effect = effect d := by
  unfold hostWrite
  rw [if_neg, h.2]
  rintro ⟨hp, hj⟩
  rw [h.1 hp] at hj
  exact absurd hj (by decide)

/-- A host write that meets a violation has the violation counted and recorded, and no effect (R61). -/
theorem hostWrite_violates {p : Port} {ix sub v k : Nat} {forbidden : Bool} (hp : p = .ring → d.joined = true)
    (h : d.writeKind p ix sub v forbidden = some k) (effect : Device → Device) :
    d.hostWrite p ix sub v forbidden effect = d.violate p ix sub k := by
  unfold hostWrite
  rw [if_neg, h]
  rintro ⟨hr, hj⟩
  rw [hp hr] at hj
  exact absurd hj (by decide)

/-- Before ring join the ring port's writes are not served (R42). -/
theorem hostWrite_unjoined {ix sub v : Nat} {forbidden : Bool} (hj : d.joined = false) (effect : Device → Device) :
    d.hostWrite .ring ix sub v forbidden effect = d := by
  unfold hostWrite
  rw [if_pos ⟨rfl, hj⟩]

/-! ## Updates of the register file alone -/

theorem put_frame (k v : Nat) : d.put k v = { d with objs := (d.put k v).objs } := rfl
theorem w_frame (ix sub v : Nat) : d.w ix sub v = { d with objs := (d.w ix sub v).objs } := rfl

theorem OnlyKeys.refl (ks : List Nat) : OnlyKeys d d ks := ⟨rfl, fun _ _ => rfl⟩

theorem OnlyKeys.trans {d e f : Device} {ks : List Nat} (h : OnlyKeys d e ks) (g : OnlyKeys e f ks) : OnlyKeys d f ks := by
  refine ⟨?_, fun k hk => (g.2 k hk).trans (h.2 k hk)⟩
  have a := g.1
  rw [h.1] at a
  exact a

theorem OnlyKeys.put {ks : List Nat} {k : Nat} (h : k ∈ ks) (v : Nat) : OnlyKeys d (d.put k v) ks :=
  ⟨rfl, fun j hj => get_put_ne d (fun (e : j = k) => hj (e.symm ▸ h)) v⟩

theorem OnlyKeys.w {ks : List Nat} {ix sub : Nat} (h : okey ix sub ∈ ks) (v : Nat) : OnlyKeys d (d.w ix sub v) ks :=
  OnlyKeys.put d h v

theorem OnlyKeys.mono {d e : Device} {ks ls : List Nat} (h : OnlyKeys d e ks) (hs : ∀ k ∈ ks, k ∈ ls) : OnlyKeys d e ls :=
  ⟨h.1, fun k hk => h.2 k fun hm => hk (hs k hm)⟩

/-- `each` over updates of the keys `ks`. -/
theorem OnlyKeys.each {f : Nat → Device → Device} {ns ks : List Nat} (h : ∀ n ∈ ns, ∀ e, OnlyKeys e (f n e) ks) :
    OnlyKeys d (each f ns d) ks := by
  induction ns generalizing d with
  | nil => exact OnlyKeys.refl d ks
  | cons n l ih =>
    exact (h n (List.mem_cons_self ..) d).trans (ih _ fun m hm => h m (List.mem_cons_of_mem _ hm))

/-- A violation counts and records, and does nothing else (R61). -/
theorem violate_only (p : Port) (ix sub kind : Nat) :
    OnlyKeys d (d.violate p ix sub kind) [okey 0x4000 0x01, okey 0x4000 0x02] :=
  (OnlyKeys.w d (List.mem_cons_self ..) _).trans (OnlyKeys.w _ (List.mem_cons_of_mem _ (List.mem_cons_self ..)) _)

/-! ## Staged settings (R59) -/

theorem each_cons (f : Nat → Device → Device) (n : Nat) (ns : List Nat) : each f (n :: ns) d = each f ns (f n d) := rfl

theorem stage_cons (k : Nat) (ks : List Nat) : stage (k :: ks) d = stage ks (d.put (pkey k) (d.get k)) := each_cons d _ _ _
theorem unstage_cons (k : Nat) (ks : List Nat) : unstage (k :: ks) d = unstage ks (d.put (pkey k) 0) := each_cons d _ _ _
theorem activate_cons (k : Nat) (ks : List Nat) : activate (k :: ks) d = activate ks (d.put (akey k) (d.get (pkey k))) :=
  each_cons d _ _ _

theorem stage_only (ks : List Nat) : OnlyKeys d (stage ks d) (ks.map pkey) :=
  OnlyKeys.each d fun _ h e => OnlyKeys.put e (List.mem_map_of_mem h) _

theorem unstage_only (ks : List Nat) : OnlyKeys d (unstage ks d) (ks.map pkey) :=
  OnlyKeys.each d fun _ h e => OnlyKeys.put e (List.mem_map_of_mem h) _

theorem activate_only (ks : List Nat) : OnlyKeys d (activate ks d) (ks.map akey) :=
  OnlyKeys.each d fun _ h e => OnlyKeys.put e (List.mem_map_of_mem h) _

end Device
end Sys2Proof.Machine
end

