-- ==== Sys2Proof/Laws/Commit.lean ====
section
/-!
SUPPORT. The commit of staged settings (R59): what the write of a commit object and the boundary of a pending commit do.
-/
namespace Sys2Proof.Machine.Device

variable {d e : Device} {b : Block} {ks : List Nat} {st : Nat} {check : Device → Nat}

theorem pends_addPend (b x : Block) : (d.addPend b).pends x = (x == b || d.pends x) := by
  unfold addPend pends
  apply Bool.eq_iff_iff.2
  by_cases h : x = b <;> simp [h]

theorem pends_dropPend (b x : Block) : (d.dropPend b).pends x = (x != b && d.pends x) := by
  unfold dropPend pends
  apply Bool.eq_iff_iff.2
  simp [and_comm]

/-- `e` is `d` but for the register file and the list of pending commits. -/
def Commits (d e : Device) : Prop := e = { d with objs := e.objs, pend := e.pend }

theorem Commits.trans {d e f : Device} (h : Commits d e) (g : Commits e f) : Commits d f := by
  unfold Commits at *
  rw [h] at g
  exact g

theorem Commits.keys (h : OnlyKeys d e ks) : Commits d e := by
  have a := h.1
  cases d
  cases e
  cases a
  rfl

theorem Commits.put (k v : Nat) : Commits d (d.put k v) := rfl
theorem Commits.addPend (b : Block) : Commits d (d.addPend b) := rfl
theorem Commits.dropPend (b : Block) : Commits d (d.dropPend b) := rfl

theorem stage_get (hk : ∀ a ∈ ks, a < pendBase) {k : Nat} (h : k ∈ ks) : (stage ks d).get (pkey k) = d.get k := by
  induction ks generalizing d with
  | nil => exact absurd h (by simp)
  | cons a l ih =>
    rw [stage_cons]
    by_cases hl : k ∈ l
    · rw [ih (fun x hx => hk x (List.mem_cons_of_mem _ hx)) hl]
      refine get_put_ne d (fun e => ?_) _
      have := hk k h
      unfold pkey at e
      omega
    · obtain rfl : k = a := by simpa [hl] using h
      rw [(stage_only _ l).2 (pkey k) (fun hm => by
        obtain ⟨x, hx, e⟩ := List.mem_map.1 hm
        unfold pkey at e
        exact hl (by rwa [show k = x by omega]))]
      exact get_put _ _ _

theorem unstage_get {k : Nat} (h : k ∈ ks) : (unstage ks d).get (pkey k) = 0 := by
  induction ks generalizing d with
  | nil => exact absurd h (by simp)
  | cons a l ih =>
    rw [unstage_cons]
    by_cases hl : k ∈ l
    · exact ih hl
    · obtain rfl : k = a := by simpa [hl] using h
      rw [(unstage_only _ l).2 (pkey k) (fun hm => by
        obtain ⟨x, hx, e⟩ := List.mem_map.1 hm
        unfold pkey at e
        exact hl (by rwa [show k = x by omega]))]
      exact get_put _ _ _

theorem activate_get (hk : ∀ a ∈ ks, a + 0x80 < pendBase) {k : Nat} (h : k ∈ ks) :
    (activate ks d).get (akey k) = d.get (pkey k) := by
  induction ks generalizing d with
  | nil => exact absurd h (by simp)
  | cons a l ih =>
    rw [activate_cons]
    by_cases hl : k ∈ l
    · rw [ih (fun x hx => hk x (List.mem_cons_of_mem _ hx)) hl]
      refine get_put_ne d (fun e => ?_) _
      have := hk a (List.mem_cons_self ..)
      unfold pkey akey at e
      omega
    · obtain rfl : k = a := by simpa [hl] using h
      rw [(activate_only _ l).2 (akey k) (fun hm => by
        obtain ⟨x, hx, e⟩ := List.mem_map.1 hm
        unfold akey at e
        exact hl (by rwa [show k = x by omega]))]
      exact get_put _ _ _

/-- A commit write that passes its check waits. -/
theorem commitWrite_waits (hk : ∀ a ∈ ks, a < pendBase) (hs : st < pendBase) (hc : check (stage ks d) = 0) :
    d.commitWaits (commitWrite b ks st check d) b ks st := by
  have he : commitWrite b ks st check d = ((stage ks d).addPend b).put st codePending := by
    unfold commitWrite
    dsimp only
    rw [if_pos hc]
  rw [he]
  have hf := stage_only d ks
  have hne : ∀ k, st ≠ pkey k := fun k h => by
    unfold pkey at h
    omega
  refine ⟨⟨?_, fun k hn => ?_, fun x hx => ?_⟩, fun k h => ?_, get_put _ _ _, ?_⟩
  · exact ((Commits.keys hf).trans (Commits.addPend b)).trans (Commits.put _ _)
  · exact (get_put_ne _ (fun e : k = st => hn (e ▸ List.mem_cons_self ..)) _).trans
      (hf.2 k fun hm => hn (List.mem_cons_of_mem _ hm))
  · change ((stage ks d).addPend b).pends x = _
    rw [pends_addPend, beq_eq_false_iff_ne.2 hx, Bool.false_or]
    unfold pends
    rw [stage_pend]
  · exact (get_put_ne _ (Ne.symm (hne k)) _).trans (stage_get hk h)
  · change ((stage ks d).addPend b).pends b = true
    rw [pends_addPend, beq_self_eq_true, Bool.true_or]

/-- A commit write that fails its check is refused with the code. -/
theorem commitWrite_refused (hs : st < pendBase) (hc : check (stage ks d) ≠ 0) :
    d.commitRefused (commitWrite b ks st check d) b ks st (check (stage ks d)) := by
  have he : commitWrite b ks st check d = ((unstage ks (stage ks d)).dropPend b).put st (check (stage ks d)) := by
    unfold commitWrite
    dsimp only
    rw [if_neg hc]
  rw [he]
  generalize check (stage ks d) = c
  have hf := (stage_only d ks).trans (unstage_only _ ks)
  have hne : ∀ k, st ≠ pkey k := fun k h => by
    unfold pkey at h
    omega
  refine ⟨⟨?_, fun k hn => ?_, fun x hx => ?_⟩, fun k h => ?_, get_put _ _ _, ?_⟩
  · exact ((Commits.keys hf).trans (Commits.dropPend b)).trans (Commits.put _ _)
  · exact (get_put_ne _ (fun e : k = st => hn (e ▸ List.mem_cons_self ..)) _).trans
      (hf.2 k fun hm => hn (List.mem_cons_of_mem _ hm))
  · change ((unstage ks (stage ks d)).dropPend b).pends x = _
    rw [pends_dropPend, bne_iff_ne.2 hx, Bool.true_and]
    unfold pends
    rw [unstage_pend, stage_pend]
  · exact (get_put_ne _ (Ne.symm (hne k)) _).trans (unstage_get h)
  · change ((unstage ks (stage ks d)).dropPend b).pends b = false
    rw [pends_dropPend, bne_self_eq_false, Bool.false_and]

/-- A pending commit that passes its check at its boundary becomes active; `after` is the identity. -/
theorem commitBoundary_applied (hk : ∀ a ∈ ks, a + 0x80 < pendBase) (hd : ∀ a ∈ ks, st ≠ akey a)
    (hp : d.pends b = true) (hc : check d = 0) :
    d.commitApplied (commitBoundary b ks st check id d) b ks st (fun k => d.get (pkey k)) [] := by
  have he : commitBoundary b ks st check id d = ((unstage ks (activate ks d)).dropPend b).put st codeAccepted := by
    unfold commitBoundary
    rw [if_pos hp]
    dsimp only
    rw [if_pos hc]
    rfl
  rw [he]
  have h1 := activate_only d ks
  have h2 := unstage_only (activate ks d) ks
  refine ⟨⟨?_, fun k hn => ?_, fun x hx => ?_⟩, fun k h => ?_, get_put _ _ _, ?_⟩
  · exact (((Commits.keys h1).trans (Commits.keys h2)).trans (Commits.dropPend b)).trans (Commits.put _ _)
  · simp only [List.nil_append, List.mem_cons, List.mem_append, not_or] at hn
    exact (get_put_ne _ hn.1 _).trans ((h2.2 k hn.2.1).trans (h1.2 k hn.2.2))
  · change ((unstage ks (activate ks d)).dropPend b).pends x = _
    rw [pends_dropPend, bne_iff_ne.2 hx, Bool.true_and]
    unfold pends
    rw [unstage_pend, activate_pend]
  · refine (get_put_ne _ (Ne.symm (hd k h)) _).trans ((h2.2 _ fun hm => ?_).trans (activate_get hk h))
    obtain ⟨x, _, e⟩ := List.mem_map.1 hm
    have := hk k h
    unfold pkey akey at e
    omega
  · change ((unstage ks (activate ks d)).dropPend b).pends b = false
    rw [pends_dropPend, bne_self_eq_false, Bool.false_and]

/-- A pending commit that fails its check at its boundary is refused. -/
theorem commitBoundary_refused {after : Device → Device} (hs : st < pendBase) (hp : d.pends b = true) (hc : check d ≠ 0) :
    d.commitRefused (commitBoundary b ks st check after d) b ks st (check d) := by
  have he : commitBoundary b ks st check after d = ((unstage ks d).dropPend b).put st (check d) := by
    unfold commitBoundary
    rw [if_pos hp]
    dsimp only
    rw [if_neg hc]
  rw [he]
  generalize check d = c
  have hf := unstage_only d ks
  refine ⟨⟨?_, fun k hn => ?_, fun x hx => ?_⟩, fun k h => ?_, get_put _ _ _, ?_⟩
  · exact ((Commits.keys hf).trans (Commits.dropPend b)).trans (Commits.put _ _)
  · exact (get_put_ne _ (fun e : k = st => hn (e ▸ List.mem_cons_self ..)) _).trans
      (hf.2 k fun hm => hn (List.mem_cons_of_mem _ hm))
  · change ((unstage ks d).dropPend b).pends x = _
    rw [pends_dropPend, bne_iff_ne.2 hx, Bool.true_and]
    unfold pends
    rw [unstage_pend]
  · refine (get_put_ne _ (fun a => ?_) _).trans (unstage_get h)
    unfold pkey at a
    omega
  · change ((unstage ks d).dropPend b).pends b = false
    rw [pends_dropPend, bne_self_eq_false, Bool.false_and]

/-- What a chapter adds at the boundary comes after the commit itself. -/
theorem commitBoundary_after {after : Device → Device} (hp : d.pends b = true) (hc : check d = 0) :
    commitBoundary b ks st check after d = after (commitBoundary b ks st check id d) := by
  unfold commitBoundary
  rw [if_pos hp, if_pos hp]
  dsimp only
  rw [if_pos hc, if_pos hc]
  rfl

/-- With no commit pending a boundary does nothing. -/
theorem commitBoundary_none {after : Device → Device} (hp : d.pends b = false) :
    commitBoundary b ks st check after d = d := by
  unfold commitBoundary
  rw [if_neg (by rw [hp]; exact Bool.false_ne_true)]

end Sys2Proof.Machine.Device
end

