-- ==== Sys2Proof/Laws/Exec.lean ====
section
/-!
SUPPORT. What `exec` does with each command: its meaning, with no other arm of the match to unfold.
-/
namespace Sys2Proof.Machine

@[simp] theorem exec_lemileFrame (l : Link) (bytes : List Byte) (st : State) : exec (.lemileFrame l bytes) st = execLemileFrame l bytes st := rfl
@[simp] theorem exec_frameWritesApply (st : State) : exec (.frameWritesApply) st = execFrameWritesApply st := rfl
@[simp] theorem exec_drd (d : Datagram) (st : State) : exec (.drd d) st = execDrd d st := rfl
@[simp] theorem exec_dwr (d : Datagram) (st : State) : exec (.dwr d) st = execDwr d st := rfl
@[simp] theorem exec_drr (d : Datagram) (st : State) : exec (.drr d) st = execDrr d st := rfl
@[simp] theorem exec_drw (d : Datagram) (st : State) : exec (.drw d) st = execDrw d st := rfl
@[simp] theorem exec_objectWrite (p : Port) (ix : BitVec 16) (sub : Byte) (data : List Byte) (st : State) : exec (.objectWrite p ix sub data) st = execObjectWrite p ix sub data st := rfl
@[simp] theorem exec_bwr (l : Link) (d : Datagram) (st : State) : exec (.bwr l d) st = execBwr l d st := rfl
@[simp] theorem exec_bulkWriteComplete (st : State) : exec (.bulkWriteComplete) st = execBulkWriteComplete st := rfl
@[simp] theorem exec_brq (d : Datagram) (st : State) : exec (.brq d) st = execBrq d st := rfl
@[simp] theorem exec_bulkReadFetchDone (upset : List SramWord) (st : State) : exec (.bulkReadFetchDone upset) st = execBulkReadFetchDone upset st := rfl
@[simp] theorem exec_brd (d : Datagram) (st : State) : exec (.brd d) st = execBrd d st := rfl
@[simp] theorem exec_evt (d : Datagram) (st : State) : exec (.evt d) st = execEvt d st := rfl
@[simp] theorem exec_sync (d : Datagram) (residence : Nat) (st : State) : exec (.sync d residence) st = execSync d residence st := rfl
@[simp] theorem exec_syncAbsenceTimeout (st : State) : exec (.syncAbsenceTimeout) st = execSyncAbsenceTimeout st := rfl
@[simp] theorem exec_trd (d : Datagram) (st : State) : exec (.trd d) st = execTrd d st := rfl
@[simp] theorem exec_pdelayMeasurement (delay : BitVec 32) (st : State) : exec (.pdelayMeasurement delay) st = execPdelayMeasurement delay st := rfl
@[simp] theorem exec_ptpFrame (sync : Bool) (correction : BitVec 64) (residence : Nat) (st : State) : exec (.ptpFrame sync correction residence) st = execPtpFrame sync correction residence st := rfl
@[simp] theorem exec_linkUp (l : Link) (st : State) : exec (.linkUp l) st = execLinkUp l st := rfl
@[simp] theorem exec_linkDown (l : Link) (st : State) : exec (.linkDown l) st = execLinkDown l st := rfl
@[simp] theorem exec_cyclicWatchdogExpiry (st : State) : exec (.cyclicWatchdogExpiry) st = execCyclicWatchdogExpiry st := rfl
@[simp] theorem exec_requestedRingState (p : Port) (v : Byte) (st : State) : exec (.requestedRingState p v) st = execRequestedRingState p v st := rfl
@[simp] theorem exec_ringOperational (st : State) : exec (.ringOperational) st = execRingOperational st := rfl
@[simp] theorem exec_roleRequest (p : Port) (v : Byte) (st : State) : exec (.roleRequest p v) st = execRoleRequest p v st := rfl
@[simp] theorem exec_roleResponse (p : Port) (data : List Byte) (st : State) : exec (.roleResponse p data) st = execRoleResponse p data st := rfl
@[simp] theorem exec_lockoutEnd (p : Port) (st : State) : exec (.lockoutEnd p) st = execLockoutEnd p st := rfl
@[simp] theorem exec_bulkLoadTotal (p : Port) (v : BitVec 64) (st : State) : exec (.bulkLoadTotal p v) st = execBulkLoadTotal p v st := rfl
@[simp] theorem exec_siteCommit (p : Port) (s : Site) (v : Byte) (st : State) : exec (.siteCommit p s v) st = execSiteCommit p s v st := rfl
@[simp] theorem exec_siteCommitProcess (st : State) : exec (.siteCommitProcess) st = execSiteCommitProcess st := rfl
@[simp] theorem exec_siteStart (p : Port) (sites : BitVec 128) (time : BitVec 64) (st : State) : exec (.siteStart p sites time) st = execSiteStart p sites time st := rfl
@[simp] theorem exec_triggerLineStart (line : Line) (st : State) : exec (.triggerLineStart line) st = execTriggerLineStart line st := rfl
@[simp] theorem exec_startTimeReached (s : Site) (st : State) : exec (.startTimeReached s) st = execStartTimeReached s st := rfl
@[simp] theorem exec_refclkLoss (st : State) : exec (.refclkLoss) st = execRefclkLoss st := rfl
@[simp] theorem exec_refclkReturn (st : State) : exec (.refclkReturn) st = execRefclkReturn st := rfl
@[simp] theorem exec_pllRelock (t : Tile) (st : State) : exec (.pllRelock t) st = execPllRelock t st := rfl
@[simp] theorem exec_levelCommit (p : Port) (q : Quad) (v : Byte) (st : State) : exec (.levelCommit p q v) st = execLevelCommit p q v st := rfl
@[simp] theorem exec_broadcastStrobeNow (p : Port) (v : Byte) (st : State) : exec (.broadcastStrobeNow p v) st = execBroadcastStrobeNow p v st := rfl
@[simp] theorem exec_monitorTick (q : Quad) (samples : List MonSample) (st : State) : exec (.monitorTick q samples) st = execMonitorTick q samples st := rfl
@[simp] theorem exec_monitorSelfCheckRequest (p : Port) (n : Chan) (v : Byte) (st : State) : exec (.monitorSelfCheckRequest p n v) st = execMonitorSelfCheckRequest p n v st := rfl
@[simp] theorem exec_selfCheckComplete (m : MonId) (st : State) : exec (.selfCheckComplete m) st = execSelfCheckComplete m st := rfl
@[simp] theorem exec_ppmuSample (n : Chan) (value : Int) (st : State) : exec (.ppmuSample n value) st = execPpmuSample n value st := rfl
@[simp] theorem exec_ppmuClampEngage (n : Chan) (which : Fin 3) (st : State) : exec (.ppmuClampEngage n which) st = execPpmuClampEngage n which st := rfl
@[simp] theorem exec_ppmuClampRelease (n : Chan) (which : Fin 3) (st : State) : exec (.ppmuClampRelease n which) st = execPpmuClampRelease n which st := rfl
@[simp] theorem exec_timingCommit (p : Port) (q : Quad) (v : Byte) (st : State) : exec (.timingCommit p q v) st = execTimingCommit p q v st := rfl
@[simp] theorem exec_timingCommitApply (q : Quad) (st : State) : exec (.timingCommitApply q) st = execTimingCommitApply q st := rfl
@[simp] theorem exec_tmuArm (p : Port) (n : Chan) (st : State) : exec (.tmuArm p n) st = execTmuArm p n st := rfl
@[simp] theorem exec_tmuDisarm (p : Port) (n : Chan) (st : State) : exec (.tmuDisarm p n) st = execTmuDisarm p n st := rfl
@[simp] theorem exec_tmuReady (n : Chan) (st : State) : exec (.tmuReady n) st = execTmuReady n st := rfl
@[simp] theorem exec_tmuStartEdge (n : Chan) (edge : PinEdge) (st : State) : exec (.tmuStartEdge n edge) st = execTmuStartEdge n edge st := rfl
@[simp] theorem exec_tmuStopEdge (n : Chan) (edge : PinEdge) (st : State) : exec (.tmuStopEdge n edge) st = execTmuStopEdge n edge st := rfl
@[simp] theorem exec_tmuGateClose (n : Chan) (st : State) : exec (.tmuGateClose n) st = execTmuGateClose n st := rfl
@[simp] theorem exec_tmuTimeout (n : Chan) (st : State) : exec (.tmuTimeout n) st = execTmuTimeout n st := rfl
@[simp] theorem exec_tmuOverrange (n : Chan) (st : State) : exec (.tmuOverrange n) st = execTmuOverrange n st := rfl
@[simp] theorem exec_tmuResult (n : Chan) (st : State) : exec (.tmuResult n) st = execTmuResult n st := rfl
@[simp] theorem exec_vec (s : Site) (w : VWord) (st : State) : exec (.vec s w) st = execVec s w st := rfl
@[simp] theorem exec_rpt (s : Site) (w : VWord) (st : State) : exec (.rpt s w) st = execRpt s w st := rfl
@[simp] theorem exec_loop (s : Site) (w : VWord) (st : State) : exec (.loop s w) st = execLoop s w st := rfl
@[simp] theorem exec_endl (s : Site) (w : VWord) (st : State) : exec (.endl s w) st = execEndl s w st := rfl
@[simp] theorem exec_call (s : Site) (w : VWord) (st : State) : exec (.call s w) st = execCall s w st := rfl
@[simp] theorem exec_ret (s : Site) (w : VWord) (st : State) : exec (.ret s w) st = execRet s w st := rfl
@[simp] theorem exec_jmp (s : Site) (w : VWord) (st : State) : exec (.jmp s w) st = execJmp s w st := rfl
@[simp] theorem exec_jmpArm (s : Site) (w : VWord) (st : State) : exec (.jmpArm s w) st = execJmpArm s w st := rfl
@[simp] theorem exec_jmpDisarm (s : Site) (w : VWord) (st : State) : exec (.jmpDisarm s w) st = execJmpDisarm s w st := rfl
@[simp] theorem exec_bif (s : Site) (w : VWord) (st : State) : exec (.bif s w) st = execBif s w st := rfl
@[simp] theorem exec_matchBlock (s : Site) (w : VWord) (st : State) : exec (.matchBlock s w) st = execMatchBlock s w st := rfl
@[simp] theorem exec_tset (s : Site) (w : VWord) (st : State) : exec (.tset s w) st = execTset s w st := rfl
@[simp] theorem exec_lset (s : Site) (w : VWord) (st : State) : exec (.lset s w) st = execLset s w st := rfl
@[simp] theorem exec_wait (s : Site) (w : VWord) (st : State) : exec (.wait s w) st = execWait s w st := rfl
@[simp] theorem exec_waitConditionMet (s : Site) (st : State) : exec (.waitConditionMet s) st = execWaitConditionMet s st := rfl
@[simp] theorem exec_waitTimeout (s : Site) (st : State) : exec (.waitTimeout s) st = execWaitTimeout s st := rfl
@[simp] theorem exec_signalPulse (s : Site) (w : VWord) (st : State) : exec (.signalPulse s w) st = execSignalPulse s w st := rfl
@[simp] theorem exec_signalSet (s : Site) (w : VWord) (st : State) : exec (.signalSet s w) st = execSignalSet s w st := rfl
@[simp] theorem exec_signalClear (s : Site) (w : VWord) (st : State) : exec (.signalClear s w) st = execSignalClear s w st := rfl
@[simp] theorem exec_captArm (s : Site) (w : VWord) (st : State) : exec (.captArm s w) st = execCaptArm s w st := rfl
@[simp] theorem exec_captAcq (s : Site) (w : VWord) (st : State) : exec (.captAcq s w) st = execCaptAcq s w st := rfl
@[simp] theorem exec_captFwclr (s : Site) (w : VWord) (st : State) : exec (.captFwclr s w) st = execCaptFwclr s w st := rfl
@[simp] theorem exec_captLog (s : Site) (w : VWord) (st : State) : exec (.captLog s w) st = execCaptLog s w st := rfl
@[simp] theorem exec_halt (s : Site) (w : VWord) (st : State) : exec (.halt s w) st = execHalt s w st := rfl
@[simp] theorem exec_illegalOpcode (s : Site) (opc : BitVec 8) (w : VWord) (st : State) : exec (.illegalOpcode s opc w) st = execIllegalOpcode s opc w st := rfl
@[simp] theorem exec_vectorCommit (s : Site) (st : State) : exec (.vectorCommit s) st = execVectorCommit s st := rfl
@[simp] theorem exec_stallResume (s : Site) (st : State) : exec (.stallResume s) st = execStallResume s st := rfl
@[simp] theorem exec_compareResult (s : Site) (seen : List Seen) (st : State) : exec (.compareResult s seen) st = execCompareResult s seen st := rfl
@[simp] theorem exec_failLogEntryClose (s : Site) (st : State) : exec (.failLogEntryClose s) st = execFailLogEntryClose s st := rfl
@[simp] theorem exec_eventJumpRequest (s : Site) (st : State) : exec (.eventJumpRequest s) st = execEventJumpRequest s st := rfl
@[simp] theorem exec_eventJump (s : Site) (st : State) : exec (.eventJump s) st = execEventJump s st := rfl
@[simp] theorem exec_preloadComplete (s : Site) (st : State) : exec (.preloadComplete s) st = execPreloadComplete s st := rfl
@[simp] theorem exec_preloadAllowanceExpiry (s : Site) (st : State) : exec (.preloadAllowanceExpiry s) st = execPreloadAllowanceExpiry s st := rfl
@[simp] theorem exec_streamRead (q : Quad) (poisoned : Bool) (st : State) : exec (.streamRead q poisoned) st = execStreamRead q poisoned st := rfl
@[simp] theorem exec_sectionDecode (q : Quad) (st : State) : exec (.sectionDecode q) st = execSectionDecode q st := rfl
@[simp] theorem exec_captureCopyDone (s : Site) (st : State) : exec (.captureCopyDone s) st = execCaptureCopyDone s st := rfl
@[simp] theorem exec_patternEnd (s : Site) (st : State) : exec (.patternEnd s) st = execPatternEnd s st := rfl
@[simp] theorem exec_controlStoreParityError (q : Quad) (st : State) : exec (.controlStoreParityError q) st = execControlStoreParityError q st := rfl
@[simp] theorem exec_backgroundSweep (q : Quad) (parityError : Bool) (st : State) : exec (.backgroundSweep q parityError) st = execBackgroundSweep q parityError st := rfl
@[simp] theorem exec_controlStoreReloadDone (q : Quad) (faults : List LoadFault) (st : State) : exec (.controlStoreReloadDone q faults) st = execControlStoreReloadDone q faults st := rfl
@[simp] theorem exec_stepComplete (s : Site) (st : State) : exec (.stepComplete s) st = execStepComplete s st := rfl
@[simp] theorem exec_resultRecordWrite (s : Site) (st : State) : exec (.resultRecordWrite s) st = execResultRecordWrite s st := rfl
@[simp] theorem exec_admissionRequest (s : Site) (st : State) : exec (.admissionRequest s) st = execAdmissionRequest s st := rfl
@[simp] theorem exec_admissionRetry (s : Site) (st : State) : exec (.admissionRetry s) st = execAdmissionRetry s st := rfl
@[simp] theorem exec_admissionWaitExpiry (s : Site) (st : State) : exec (.admissionWaitExpiry s) st = execAdmissionWaitExpiry s st := rfl
@[simp] theorem exec_runPattern (s : Site) (st : State) : exec (.runPattern s) st = execRunPattern s st := rfl
@[simp] theorem exec_paramMeasure (s : Site) (st : State) : exec (.paramMeasure s) st = execParamMeasure s st := rfl
@[simp] theorem exec_measurementDone (s : Site) (st : State) : exec (.measurementDone s) st = execMeasurementDone s st := rfl
@[simp] theorem exec_dpsSet (s : Site) (st : State) : exec (.dpsSet s) st = execDpsSet s st := rfl
@[simp] theorem exec_settle (s : Site) (st : State) : exec (.settle s) st = execSettle s st := rfl
@[simp] theorem exec_settleDone (s : Site) (st : State) : exec (.settleDone s) st = execSettleDone s st := rfl
@[simp] theorem exec_branch (s : Site) (st : State) : exec (.branch s) st = execBranch s st := rfl
@[simp] theorem exec_bin (s : Site) (st : State) : exec (.bin s) st = execBin s st := rfl
@[simp] theorem exec_datalog (s : Site) (st : State) : exec (.datalog s) st = execDatalog s st := rfl
@[simp] theorem exec_calibratePoint (s : Site) (st : State) : exec (.calibratePoint s) st = execCalibratePoint s st := rfl
@[simp] theorem exec_endStep (s : Site) (st : State) : exec (.endStep s) st = execEndStep s st := rfl
@[simp] theorem exec_abort (p : Port) (s : Site) (v : Byte) (st : State) : exec (.abort p s v) st = execAbort p s v st := rfl
@[simp] theorem exec_stepTimeout (s : Site) (st : State) : exec (.stepTimeout s) st = execStepTimeout s st := rfl
@[simp] theorem exec_firstFailRearm (p : Port) (s : Site) (v : Byte) (st : State) : exec (.firstFailRearm p s v) st = execFirstFailRearm p s v st := rfl
@[simp] theorem exec_dpsCommit (p : Port) (d : Dps) (v : Byte) (st : State) : exec (.dpsCommit p d v) st = execDpsCommit p d v st := rfl
@[simp] theorem exec_dpsUpdateTick (railW railE : Int) (charge : List Int) (st : State) : exec (.dpsUpdateTick railW railE charge) st = execDpsUpdateTick railW railE charge st := rfl
@[simp] theorem exec_gangCommit (p : Port) (t : Tile) (v : Byte) (st : State) : exec (.gangCommit p t v) st = execGangCommit p t v st := rfl
@[simp] theorem exec_dpsSample (d : Dps) (microvolt current : Int) (st : State) : exec (.dpsSample d microvolt current) st = execDpsSample d microvolt current st := rfl
@[simp] theorem exec_dpsClampEngage (d : Dps) (st : State) : exec (.dpsClampEngage d) st = execDpsClampEngage d st := rfl
@[simp] theorem exec_senseOpen (d : Dps) (st : State) : exec (.senseOpen d) st = execSenseOpen d st := rfl
@[simp] theorem exec_headroom (d : Dps) (st : State) : exec (.headroom d) st = execHeadroom d st := rfl
@[simp] theorem exec_dpsMonitorTick (d : Dps) (current : Bool) (sample : MonSample) (st : State) : exec (.dpsMonitorTick d current sample) st = execDpsMonitorTick d current sample st := rfl
@[simp] theorem exec_dpsSelfCheckRequest (p : Port) (d : Dps) (v : Byte) (st : State) : exec (.dpsSelfCheckRequest p d v) st = execDpsSelfCheckRequest p d v st := rfl
@[simp] theorem exec_chargeClear (p : Port) (d : Dps) (v : Byte) (st : State) : exec (.chargeClear p d v) st = execChargeClear p d v st := rfl
@[simp] theorem exec_shutdownRankAdvance (st : State) : exec (.shutdownRankAdvance) st = execShutdownRankAdvance st := rfl
@[simp] theorem exec_acquisitionCommit (p : Port) (c : Cluster) (v : Byte) (st : State) : exec (.acquisitionCommit p c v) st = execAcquisitionCommit p c v st := rfl
@[simp] theorem exec_acquisitionArm (p : Port) (c : Cluster) (st : State) : exec (.acquisitionArm p c) st = execAcquisitionArm p c st := rfl
@[simp] theorem exec_acquisitionDisarm (p : Port) (c : Cluster) (st : State) : exec (.acquisitionDisarm p c) st = execAcquisitionDisarm p c st := rfl
@[simp] theorem exec_hostTrigger (p : Port) (c : Cluster) (v : Byte) (st : State) : exec (.hostTrigger p c v) st = execHostTrigger p c v st := rfl
@[simp] theorem exec_sampleSet (c : Cluster) (st : State) : exec (.sampleSet c) st = execSampleSet c st := rfl
@[simp] theorem exec_autoTimeout (c : Cluster) (st : State) : exec (.autoTimeout c) st = execAutoTimeout c st := rfl
@[simp] theorem exec_acqReady (c : Cluster) (st : State) : exec (.acqReady c) st = execAcqReady c st := rfl
@[simp] theorem exec_captureComplete (c : Cluster) (st : State) : exec (.captureComplete c) st = execCaptureComplete c st := rfl
@[simp] theorem exec_memoryCommit (p : Port) (v : Byte) (st : State) : exec (.memoryCommit p v) st = execMemoryCommit p v st := rfl
@[simp] theorem exec_train (p : Port) (st : State) : exec (.train p) st = execTrain p st := rfl
@[simp] theorem exec_retrain (p : Port) (st : State) : exec (.retrain p) st = execRetrain p st := rfl
@[simp] theorem exec_release (p : Port) (st : State) : exec (.release p) st = execRelease p st := rfl
@[simp] theorem exec_trainingStepDone (k : MemCh) (ok : Bool) (st : State) : exec (.trainingStepDone k ok) st = execTrainingStepDone k ok st := rfl
@[simp] theorem exec_tablePeriodBoundary (st : State) : exec (.tablePeriodBoundary) st = execTablePeriodBoundary st := rfl
@[simp] theorem exec_slot (j : SubCh) (use : SlotUse) (st : State) : exec (.slot j use) st = execSlot j use st := rfl
@[simp] theorem exec_disturbanceWindowEnd (j : SubCh) (st : State) : exec (.disturbanceWindowEnd j) st = execDisturbanceWindowEnd j st := rfl
@[simp] theorem exec_sdramReadData (j : SubCh) (addr : BitVec 39) (ecc : Ecc) (scrub : Bool) (st : State) : exec (.sdramReadData j addr ecc scrub) st = execSdramReadData j addr ecc scrub st := rfl
@[simp] theorem exec_alertN (j : SubCh) (st : State) : exec (.alertN j) st = execAlertN j st := rfl
@[simp] theorem exec_replay (j : SubCh) (failed : Nat) (st : State) : exec (.replay j failed) st = execReplay j failed st := rfl
@[simp] theorem exec_queueCommit (p : Port) (v : Byte) (st : State) : exec (.queueCommit p v) st = execQueueCommit p v st := rfl
@[simp] theorem exec_creditGrant (p : Port) (n : BitVec 32) (st : State) : exec (.creditGrant p n) st = execCreditGrant p n st := rfl
@[simp] theorem exec_dequeue (p : Port) (n : BitVec 32) (st : State) : exec (.dequeue p n) st = execDequeue p n st := rfl
@[simp] theorem exec_enqueue (p : Port) (v : BitVec 32) (st : State) : exec (.enqueue p v) st = execEnqueue p v st := rfl
@[simp] theorem exec_entryEnqueued (q : QueueNo) (eop : Bool) (entry : List Byte) (st : State) : exec (.entryEnqueued q eop entry) st = execEntryEnqueued q eop entry st := rfl
@[simp] theorem exec_flush (p : Port) (v : Byte) (st : State) : exec (.flush p v) st = execFlush p v st := rfl
@[simp] theorem exec_flushPoint (q : QueueNo) (st : State) : exec (.flushPoint q) st = execFlushPoint q st := rfl
@[simp] theorem exec_queueReset (q : QueueNo) (u : QueueUpset) (st : State) : exec (.queueReset q u) st = execQueueReset q u st := rfl
@[simp] theorem exec_ledgerCheck (checker : Fin 9) (st : State) : exec (.ledgerCheck checker) st = execLedgerCheck checker st := rfl
@[simp] theorem exec_ledgerLocate (t : Tile) (st : State) : exec (.ledgerLocate t) st = execLedgerLocate t st := rfl
@[simp] theorem exec_ledgerResume (p : Port) (v : Byte) (st : State) : exec (.ledgerResume p v) st = execLedgerResume p v st := rfl
@[simp] theorem exec_clearMemoryCondition (p : Port) (v : Byte) (st : State) : exec (.clearMemoryCondition p v) st = execClearMemoryCondition p v st := rfl
@[simp] theorem exec_eventDelivery (st : State) : exec (.eventDelivery) st = execEventDelivery st := rfl
@[simp] theorem exec_faultLatchClear (p : Port) (v : Byte) (st : State) : exec (.faultLatchClear p v) st = execFaultLatchClear p v st := rfl
@[simp] theorem exec_triggerLinePulse (p : Port) (mask : BitVec 32) (st : State) : exec (.triggerLinePulse p mask) st = execTriggerLinePulse p mask st := rfl
@[simp] theorem exec_trigInput (k : Fin 4) (edge : Fin 1000) (width : BitVec 32) (st : State) : exec (.trigInput k edge width) st = execTrigInput k edge width st := rfl
@[simp] theorem exec_snapshotTrigger (p : Port) (v : Byte) (st : State) : exec (.snapshotTrigger p v) st = execSnapshotTrigger p v st := rfl
@[simp] theorem exec_snapIn (st : State) : exec (.snapIn) st = execSnapIn st := rfl
@[simp] theorem exec_snapshotLatch (st : State) : exec (.snapshotLatch) st = execSnapshotLatch st := rfl
@[simp] theorem exec_rearmAllBanks (p : Port) (v : Byte) (st : State) : exec (.rearmAllBanks p v) st = execRearmAllBanks p v st := rfl
@[simp] theorem exec_rearmBank (p : Port) (v : Byte) (st : State) : exec (.rearmBank p v) st = execRearmBank p v st := rfl
@[simp] theorem exec_headSetupCommit (p : Port) (h : Head) (v : Byte) (st : State) : exec (.headSetupCommit p h v) st = execHeadSetupCommit p h v st := rfl
@[simp] theorem exec_headEnable (p : Port) (h : Head) (st : State) : exec (.headEnable p h) st = execHeadEnable p h st := rfl
@[simp] theorem exec_headDisable (p : Port) (h : Head) (st : State) : exec (.headDisable p h) st = execHeadDisable p h st := rfl
@[simp] theorem exec_frameCommit (p : Port) (h : Head) (v : Byte) (st : State) : exec (.frameCommit p h v) st = execFrameCommit p h v st := rfl
@[simp] theorem exec_latchInstant (h : Head) (st : State) : exec (.latchInstant h) st = execLatchInstant h st := rfl
@[simp] theorem exec_lineFetch (h : Head) (st : State) : exec (.lineFetch h) st = execLineFetch h st := rfl
@[simp] theorem exec_lineMatch (h : Head) (st : State) : exec (.lineMatch h) st = execLineMatch h st := rfl
@[simp] theorem exec_pixelUnderrun (h : Head) (st : State) : exec (.pixelUnderrun h) st = execPixelUnderrun h st := rfl
@[simp] theorem exec_frameDone (h : Head) (readBack : List (List Int)) (st : State) : exec (.frameDone h readBack) st = execFrameDone h readBack st := rfl
@[simp] theorem exec_porstN (st : State) : exec (.porstN) st = execPorstN st := rfl
@[simp] theorem exec_wake (toggles : Bool) (st : State) : exec (.wake toggles) st = execWake toggles st := rfl
@[simp] theorem exec_fuseReadDone (programmed wrong : BitVec 16384) (st : State) : exec (.fuseReadDone programmed wrong) st = execFuseReadDone programmed wrong st := rfl
@[simp] theorem exec_imageReadDone (r : SlotRead) (st : State) : exec (.imageReadDone r) st = execImageReadDone r st := rfl
@[simp] theorem exec_microcodeBroadcastDone (faults : List LoadFault) (st : State) : exec (.microcodeBroadcastDone faults) st = execMicrocodeBroadcastDone faults st := rfl
@[simp] theorem exec_bootRestart (p : Port) (v : Byte) (st : State) : exec (.bootRestart p v) st = execBootRestart p v st := rfl
@[simp] theorem exec_coreWatchdog (h : Half) (st : State) : exec (.coreWatchdog h) st = execCoreWatchdog h st := rfl
@[simp] theorem exec_pageFill (h : Half) (page : BitVec 10) (bytes : List Byte) (st : State) : exec (.pageFill h page bytes) st = execPageFill h page bytes st := rfl
@[simp] theorem exec_primroseReread (arbiter halfW halfE : Copies) (st : State) : exec (.primroseReread arbiter halfW halfE) st = execPrimroseReread arbiter halfW halfE st := rfl
@[simp] theorem exec_primacyAssignment (p : Port) (v : Byte) (st : State) : exec (.primacyAssignment p v) st = execPrimacyAssignment p v st := rfl
@[simp] theorem exec_rollbackBurn (p : Port) (v : Byte) (st : State) : exec (.rollbackBurn p v) st = execRollbackBurn p v st := rfl
@[simp] theorem exec_hostFrameStart (p : Port) (v : Byte) (st : State) : exec (.hostFrameStart p v) st = execHostFrameStart p v st := rfl
@[simp] theorem exec_cspFrameDone (data : List Byte) (st : State) : exec (.cspFrameDone data) st = execCspFrameDone data st := rfl
@[simp] theorem exec_cspRdyTimeout (st : State) : exec (.cspRdyTimeout) st = execCspRdyTimeout st := rfl
@[simp] theorem exec_windowRead (k : Sel) (off : BitVec 28) (len : BitVec 16) (st : State) : exec (.windowRead k off len) st = execWindowRead k off len st := rfl
@[simp] theorem exec_windowWrite (k : Sel) (off : BitVec 28) (data : List Byte) (st : State) : exec (.windowWrite k off data) st = execWindowWrite k off data st := rfl
@[simp] theorem exec_statusPoll (k : Sel) (status : Byte) (st : State) : exec (.statusPoll k status) st = execStatusPoll k status st := rfl
@[simp] theorem exec_writeTimeout (k : Sel) (st : State) : exec (.writeTimeout k) st = execWriteTimeout k st := rfl
@[simp] theorem exec_sspRead (f : SspFrame) (st : State) : exec (.sspRead f) st = execSspRead f st := rfl
@[simp] theorem exec_sspWrite (f : SspFrame) (st : State) : exec (.sspWrite f) st = execSspWrite f st := rfl
@[simp] theorem exec_sspRangeRead (f : SspFrame) (st : State) : exec (.sspRangeRead f) st = execSspRangeRead f st := rfl
@[simp] theorem exec_sspRangeWrite (f : SspFrame) (st : State) : exec (.sspRangeWrite f) st = execSspRangeWrite f st := rfl
@[simp] theorem exec_sspStatus (f : SspFrame) (st : State) : exec (.sspStatus f) st = execSspStatus f st := rfl
@[simp] theorem exec_sspDiscard (cut : SspCut) (st : State) : exec (.sspDiscard cut) st = execSspDiscard cut st := rfl
@[simp] theorem exec_calibrationRequest (p : Port) (v : BitVec 16) (st : State) : exec (.calibrationRequest p v) st = execCalibrationRequest p v st := rfl
@[simp] theorem exec_calibrationStart (t : Tile) (st : State) : exec (.calibrationStart t) st = execCalibrationStart t st := rfl
@[simp] theorem exec_calibrationRunDone (t : Tile) (r : CalReport) (st : State) : exec (.calibrationRunDone t r) st = execCalibrationRunDone t r st := rfl
@[simp] theorem exec_retryIntervalExpiry (t : Tile) (st : State) : exec (.retryIntervalExpiry t) st = execRetryIntervalExpiry t st := rfl
@[simp] theorem exec_latencyTolerance (p : Port) (t : Tile) (v : BitVec 32) (st : State) : exec (.latencyTolerance p t v) st = execLatencyTolerance p t v st := rfl
@[simp] theorem exec_powerStateChange (t : Tile) (st : State) : exec (.powerStateChange t) st = execPowerStateChange t st := rfl
@[simp] theorem exec_dormantReentry (t : Tile) (st : State) : exec (.dormantReentry t) st = execDormantReentry t st := rfl
@[simp] theorem exec_sensorConversion (t : Tile) (conv : List Conversion) (st : State) : exec (.sensorConversion t conv) st = execSensorConversion t conv st := rfl
@[simp] theorem exec_sensorSelfTest (t : Tile) (deviations : List Int) (st : State) : exec (.sensorSelfTest t deviations) st = execSensorSelfTest t deviations st := rfl
@[simp] theorem exec_temperaturePrediction (st : State) : exec (.temperaturePrediction) st = execTemperaturePrediction st := rfl
@[simp] theorem exec_analogTrip (t : Tile) (st : State) : exec (.analogTrip t) st = execAnalogTrip t st := rfl
@[simp] theorem exec_shutdownComplete (st : State) : exec (.shutdownComplete) st = execShutdownComplete st := rfl
@[simp] theorem exec_thermalCommit (p : Port) (v : Byte) (st : State) : exec (.thermalCommit p v) st = execThermalCommit p v st := rfl
@[simp] theorem exec_thermalReArm (p : Port) (v : Byte) (selfTestFailed : BitVec 64) (st : State) : exec (.thermalReArm p v selfTestFailed) st = execThermalReArm p v selfTestFailed st := rfl
@[simp] theorem exec_supplyOutOfRange (rail : Fin 7) (st : State) : exec (.supplyOutOfRange rail) st = execSupplyOutOfRange rail st := rfl
@[simp] theorem exec_vaonReset (st : State) : exec (.vaonReset) st = execVaonReset st := rfl
@[simp] theorem exec_dpsClampRelease (d : Dps) (st : State) : exec (.dpsClampRelease d) st = execDpsClampRelease d st := rfl
@[simp] theorem exec_supplyBackInRange (rail : Fin 7) (st : State) : exec (.supplyBackInRange rail) st = execSupplyBackInRange rail st := rfl
@[simp] theorem exec_porstNAssertion (st : State) : exec (.porstNAssertion) st = execPorstNAssertion st := rfl

end Sys2Proof.Machine
end

