-- ==== Sys2Proof/Laws/Floors.lean ====
section
/-!
SUPPORT. What settling a tile's power state can change (R267, R370, R371).
-/
namespace Sys2Proof.Machine.Device

variable {d e f : Device} {ks ls ts us : List Nat}

theorem OnlySettled.refl : OnlySettled d d ks ts := ⟨rfl, fun _ _ => rfl⟩

theorem OnlySettled.trans (h : OnlySettled d e ks ts) (g : OnlySettled e f ks ts) : OnlySettled d f ks ts := by
  refine ⟨?_, fun k hk => (g.2 k hk).trans (h.2 k hk)⟩
  have a := g.1
  rw [h.1] at a
  exact a

theorem OnlySettled.mono (h : OnlySettled d e ks ts) (hk : ∀ k ∈ ks, k ∈ ls) (ht : ∀ t ∈ ts, t ∈ us) :
    OnlySettled d e ls us := by
  refine ⟨h.1, fun k hn => h.2 k fun hm => hn ?_⟩
  rcases List.mem_append.1 hm with a | a
  · exact List.mem_append.2 (.inl (hk k a))
  · obtain ⟨t, b, c⟩ := List.mem_flatMap.1 a
    exact List.mem_append.2 (.inr (List.mem_flatMap.2 ⟨t, ht t b, c⟩))

/-- An update of listed objects alone. -/
theorem OnlySettled.keys (h : OnlyKeys d e ks) : OnlySettled d e ks ts := by
  refine ⟨?_, fun k hn => h.2 k fun hm => hn (List.mem_append.2 (.inl hm))⟩
  have a := h.1
  cases d
  cases e
  cases a
  rfl

theorem OnlySettled.put {k : Nat} (h : k ∈ ks ++ ts.flatMap settleKeys) (v : Nat) : OnlySettled d (d.put k v) ks ts :=
  ⟨rfl, fun j hj => get_put_ne d (fun (a : j = k) => hj (a.symm ▸ h)) v⟩

theorem beginShortRetrain_settled {t k : Nat} (ht : t ∈ ts) (hk : k = 2 * t ∨ k = 2 * t + 1) :
    OnlySettled d (beginShortRetrain k d) ks ts := by
  unfold beginShortRetrain
  split
  · refine ⟨rfl, fun j hj => get_put_ne d (fun (a : j = okey (0x1610 + k) 0x03) => hj ?_) 2⟩
    refine List.mem_append.2 (.inr (List.mem_flatMap.2 ⟨t, ht, ?_⟩))
    rw [a]
    rcases hk with rfl | rfl <;> simp [settleKeys]
  · exact .refl

theorem beginMove_settled {t : Nat} (ht : t ∈ ts) (v : Nat) : OnlySettled d (beginMove t v d) ks ts := by
  unfold beginMove
  have h1 : OnlySettled d (({ d with power := { d.power with
      moving := Cells.write 0 t (v + 1) d.power.moving, moveSince := Cells.write 0 t d.cycle d.power.moveSince } } : Device).w
        (0x1320 + t) 0x08 1) ks ts := by
    refine ⟨rfl, fun j hj => get_put_ne _ (fun (a : j = okey (0x1320 + t) 0x08) => hj ?_) 1⟩
    exact List.mem_append.2 (.inr (List.mem_flatMap.2 ⟨t, ht, by rw [a]; simp [settleKeys]⟩))
  dsimp only
  split
  · exact h1.trans ((beginShortRetrain_settled ht (.inl rfl)).trans (beginShortRetrain_settled ht (.inr rfl)))
  · exact h1

/-- Settling a tile changes its own objects and may begin its move; nothing else. -/
theorem settleTile_settled {t : Nat} (ht : t ∈ ts) : OnlySettled d (settleTile t d) ks ts := by
  have hm : ∀ sub, okey (0x1320 + t) sub ∈ settleKeys t → okey (0x1320 + t) sub ∈ ks ++ ts.flatMap settleKeys := fun sub h =>
    List.mem_append.2 (.inr (List.mem_flatMap.2 ⟨t, ht, h⟩))
  have h1 (a b c : Nat) : OnlySettled d (((d.w (0x1320 + t) 0x05 a).w (0x1320 + t) 0x04 b).w (0x1320 + t) 0x03 c) ks ts :=
    (OnlySettled.put (hm 5 (by simp [settleKeys])) a).trans
      ((OnlySettled.put (hm 4 (by simp [settleKeys])) b).trans (OnlySettled.put (hm 3 (by simp [settleKeys])) c))
  unfold settleTile settleBy
  dsimp only
  split
  · exact h1 _ _ _
  · exact (h1 _ _ _).trans (beginMove_settled ht _)

theorem OnlySettled.each {f : Nat → Device → Device} {ns : List Nat} (h : ∀ n ∈ ns, ∀ e, OnlySettled e (f n e) ks ts) :
    OnlySettled d (Device.each f ns d) ks ts := by
  induction ns generalizing d with
  | nil => exact .refl
  | cons n l ih => exact (h n (List.mem_cons_self ..) d).trans (ih fun m hm => h m (List.mem_cons_of_mem _ hm))

/-- Settling all tiles. -/
theorem settleTiles_settled : OnlySettled d (settleTiles d) ks (List.range 8) :=
  OnlySettled.each fun _ hn _ => settleTile_settled (List.mem_range.2 (by
    simp only [List.mem_cons, List.not_mem_nil, or_false] at hn
    omega))

end Sys2Proof.Machine.Device
end

