-- ==== Sys2Proof/Laws/Memory.lean ====
section
/-!
SUPPORT. The memories and the register file: what a write leaves to be read, and that every operation that changes their
contents keeps the canonical form.
-/
namespace Sys2Proof.Machine

namespace Cells

variable {α : Type} [DecidableEq α]

theorem wf_iff {d : Nat → α} {m : List (Nat × α)} :
    wf d m = true ↔ rising m = true ∧ ∀ p ∈ m, p.2 ≠ d p.1 := by
  simp [wf, List.all_eq_true]

theorem rising_filter {β : Type} {m : List (Nat × β)} (h : rising m = true) (q : Nat × β → Bool) :
    rising (m.filter q) = true := by
  induction m with
  | nil => rfl
  | cons p m ih =>
    obtain ⟨j, v⟩ := p
    have hc := rising_cons.1 h
    by_cases hq : q (j, v) = true
    · rw [List.filter_cons_of_pos hq]
      exact rising_cons.2 ⟨fun x hx => hc.1 x (List.mem_filter.1 hx).1, ih hc.2⟩
    · rw [List.filter_cons_of_neg hq]
      exact ih hc.2

/-- Dropping cells keeps the form, for any unlisted values that agree on the cells kept. -/
theorem wf_filter {d e : Nat → α} {m : List (Nat × α)} (h : wf d m = true) (q : Nat → Bool)
    (he : ∀ k, q k = true → e k = d k) : wf e (m.filter fun p => q p.1) = true := by
  rw [wf_iff] at h ⊢
  refine ⟨rising_filter h.1 _, fun p hp => ?_⟩
  obtain ⟨hm, hq⟩ := List.mem_filter.1 hp
  rw [he p.1 hq]
  exact h.2 p hm

end Cells

namespace Device

variable (d : Device)

theorem reset_objsWf : Device.reset.objsWf = true := rfl
theorem reset_sramWf : Device.reset.sramWf = true := rfl
theorem reset_sdramWf : Device.reset.sdramWf = true := rfl

/-- A write of one object keeps the register file in form. -/
theorem put_objsWf (h : d.objsWf = true) (k v : Nat) : (d.put k v).objsWf = true := Cells.wf_write h k v

/-! ## Cluster SRAM -/

@[simp] theorem sramByte_put_same (k : Nat) (b : Byte) : (d.sramPut k b).sramByte k = b := Cells.read_write_same ..

theorem sramByte_put_other {j k : Nat} (h : j ≠ k) (b : Byte) : (d.sramPut k b).sramByte j = d.sramByte j :=
  Cells.read_write_other h ..

theorem sramPut_wf (h : d.sramWf = true) (k : Nat) (b : Byte) : (d.sramPut k b).sramWf = true :=
  Cells.wf_write (d := fun _ => (0 : Byte)) h k b

theorem sramWrite_wf (h : d.sramWf = true) (k : Nat) (bs : List Byte) : (sramWrite k bs d).sramWf = true := by
  induction bs generalizing d k with
  | nil => exact h
  | cons b bs ih => exact ih _ (d.sramPut_wf h k b) _

/-- A store to SRAM keeps the form. -/
theorem sramStore_wf (h : d.sramWf = true) (k : Nat) (bs : List Byte) : (sramStore k bs d).sramWf = true :=
  (d.addWrap ..).sramWrite_wf h k bs

/-- A store to SRAM leaves every byte outside it. -/
theorem sramByte_write_outside {j : Nat} (k : Nat) (bs : List Byte) (h : j < k ∨ k + bs.length ≤ j) :
    (sramWrite k bs d).sramByte j = d.sramByte j := by
  induction bs generalizing d k with
  | nil => rfl
  | cons b bs ih =>
    have hl : (b :: bs).length = bs.length + 1 := rfl
    show (sramWrite (k + 1) bs (d.sramPut k b)).sramByte j = _
    rw [ih _ (k + 1) (by omega)]
    exact d.sramByte_put_other (by omega) b

/-! ## SDRAM -/

@[simp] theorem sdramDefault_put (a b : Nat) (v : Byte) : (d.sdramPut a v).sdramDefault b = d.sdramDefault b := rfl

@[simp] theorem sdramByte_put_same (a : Nat) (b : Byte) : (d.sdramPut a b).sdramByte a = b := Cells.read_write_same ..

theorem sdramByte_put_other {a c : Nat} (h : c ≠ a) (b : Byte) : (d.sdramPut a b).sdramByte c = d.sdramByte c :=
  Cells.read_write_other h ..

theorem sdramPut_wf (h : d.sdramWf = true) (a : Nat) (b : Byte) : (d.sdramPut a b).sdramWf = true := Cells.wf_write h a b

theorem sdramWrite_wf (h : d.sdramWf = true) (a : Nat) (bs : List Byte) : (sdramWrite a bs d).sdramWf = true := by
  induction bs generalizing d a with
  | nil => exact h
  | cons b bs ih => exact ih _ (d.sdramPut_wf h a b) _

/-- A store to SDRAM keeps the form. -/
theorem sdramStore_wf (h : d.sdramWf = true) (a : Nat) (bs : List Byte) : (sdramStore a bs d).sdramWf = true :=
  d.sdramWrite_wf h a bs

/-- A store to SDRAM leaves every byte outside it. -/
theorem sdramByte_write_outside {c : Nat} (a : Nat) (bs : List Byte) (h : c < a ∨ a + bs.length ≤ c) :
    (sdramWrite a bs d).sdramByte c = d.sdramByte c := by
  induction bs generalizing d a with
  | nil => rfl
  | cons b bs ih =>
    have hl : (b :: bs).length = bs.length + 1 := rfl
    show (sdramWrite (a + 1) bs (d.sdramPut a b)).sdramByte c = _
    rw [ih _ (a + 1) (by omega)]
    exact d.sdramByte_put_other (by omega) b

/-- Setting or clearing one bit leaves every other. -/
theorem bit_setBit_other {v j k : Nat} (h : j ≠ k) (b : Bool) : bit (setBit v k b) j = bit v j := by
  unfold bit setBit
  have hk : ¬ k = j := fun e => h e.symm
  cases b
  · by_cases hv : v.testBit k = true
    · have ho : v / 2 ^ k % 2 = 1 := by simpa [Nat.testBit_eq_decide_div_mod_eq] using hv
      have hr : v % 2 ^ k < 2 ^ k := Nat.mod_lt _ (Nat.two_pow_pos k)
      have hd := Nat.div_add_mod v (2 ^ k)
      have hq : v / 2 ^ k = 2 * (v / 2 ^ k / 2) + 1 := by omega
      generalize v / 2 ^ k / 2 = q at hq
      generalize v % 2 ^ k = r at hr hd
      rw [hq] at hd
      have hs : v - 2 ^ k = 2 ^ k * (2 * q) + r := by
        rw [← hd, Nat.mul_add]
        omega
      simp only [Bool.false_eq_true, if_false, hv, if_true]
      rw [hs, ← hd, Nat.testBit_two_pow_mul_add _ hr, Nat.testBit_two_pow_mul_add _ hr]
      split
      · rfl
      · obtain ⟨m, hm⟩ : ∃ m, j - k = m + 1 := ⟨j - k - 1, by omega⟩
        rw [hm, Nat.testBit_succ, Nat.testBit_succ]
        congr 1
        omega
    · simp [hv]
  · simp [Nat.testBit_or, hk]

theorem bit_setBits_other {ks : List Nat} {j : Nat} (h : j ∉ ks) (b : Bool) (v : Nat) :
    bit (setBits ks b v) j = bit v j := by
  induction ks generalizing v with
  | nil => rfl
  | cons k ks ih =>
    simp only [List.mem_cons, not_or] at h
    exact (ih h.2 _).trans (bit_setBit_other h.1 b)

/-- An address outside channel `k` lies in no part of the map that the channel holds. -/
theorem addrSlot_notMem {d : Device} {a k : Nat} (h : d.addrChan a ≠ k) : addrSlot a ∉ d.chanSlots k := by
  intro hm
  exact h (by simpa [addrChan] using (List.mem_filter.1 hm).2)

/-- Changed zero-fill bits of a channel's own parts leave the rest of SDRAM in form, once its cells are gone (R264). -/
theorem sdramWf_without (h : d.sdramWf = true) (k : Nat) (b : Bool) :
    Cells.wf (fun a => if bit (setBits (d.chanSlots k) b d.mem.zeroFilled) (addrSlot a) then (0 : Byte) else Config.unwrittenByte a)
      (d.mem.sdram.filter fun p => d.addrChan p.1 != k) = true := by
  refine Cells.wf_filter h (fun a => d.addrChan a != k) fun a ha => ?_
  have hk : d.addrChan a ≠ k := by simpa using ha
  show (if bit (setBits _ b d.mem.zeroFilled) (addrSlot a) then (0 : Byte) else _) = _
  rw [bit_setBits_other (addrSlot_notMem hk)]
  rfl

/-- The contents of a channel that are lost leave the rest in form (R264). -/
theorem loseContents_sdramWf (h : d.sdramWf = true) (k : Nat) : (loseContents k d).sdramWf = true :=
  sdramWf_without d h k false

end Device
end Sys2Proof.Machine
end

