-- ==== Sys2Proof/Laws/Sequencer.lean ====
section
/-!
SUPPORT. What the issue of a block can change: the sequencer of its site, the streams of the site's quads, and the objects that
show them.
-/
namespace Sys2Proof.Machine.Device

variable {s : Nat} {Q : List Nat} {d e f : Device}

/-- The site's quads and its lead are among `Q`. -/
def Covers (s : Nat) (Q : List Nat) (d : Device) : Prop := d.leadQuad s ∈ Q ∧ ∀ q ∈ d.siteQuads s, q ∈ Q

/-- The objects of the quads `Q` that issue may write. -/
def issueKeys (Q : List Nat) : List Nat := Q.flatMap fun q => issueSubs.map (okey (quadIx q))

/-- `e` differs from `d` only in what issue may change, with the site's quads among `Q`; a waiting event jump stays. -/
def Issued (s : Nat) (Q : List Nat) (d e : Device) : Prop :=
  Covers s Q d →
  e = { d with objs := e.objs, sites := { d.sites with seq := e.sites.seq, stream := e.sites.stream } } ∧
  (∀ j, j ≠ s → e.seqOf j = d.seqOf j) ∧ (∀ q, q ∉ Q → e.streamOf q = d.streamOf q) ∧ d.sameBut e (issueKeys Q) ∧
  (e.seqOf s).request = (d.seqOf s).request

theorem mem_issueKeys {k : Nat} (h : k ∈ issueKeys Q) : ∃ q ∈ Q, ∃ x ∈ issueSubs, k = okey (quadIx q) x := by
  simp only [issueKeys, List.mem_flatMap, List.mem_map] at h
  obtain ⟨q, hq, x, hx, rfl⟩ := h
  exact ⟨q, hq, x, hx, rfl⟩

theorem issueKeys_mem {q x : Nat} (hq : q ∈ Q) (hx : x ∈ issueSubs) : okey (quadIx q) x ∈ issueKeys Q := by
  simp only [issueKeys, List.mem_flatMap, List.mem_map]
  exact ⟨q, hq, x, hx, rfl⟩

/-- Objects with another subindex are none that issue writes. -/
theorem not_issueKeys {ix sub : Nat} (hs : sub < 256) (h : sub ∉ issueSubs) : okey ix sub ∉ issueKeys Q := by
  intro hk
  obtain ⟨q, _, x, hx, e⟩ := mem_issueKeys hk
  have hx' : x < 256 := by
    simp only [issueSubs, List.mem_cons, List.not_mem_nil, or_false] at hx
    omega
  obtain ⟨_, rfl⟩ := okey_inj hs hx' e
  exact h hx

theorem Issued.siteQuads (h : Issued s Q d e) (hc : Covers s Q d) : e.siteQuads s = d.siteQuads s := by
  have hm : e.siteMask s = d.siteMask s := by
    have a := (h hc).2.2.2.1 (akey (okey (siteIx s) 0x01)) (by
      have : akey (okey (siteIx s) 0x01) = okey (siteIx s) 0x81 := by unfold akey okey; omega
      rw [this]; exact not_issueKeys (by decide) (by decide))
    have b := (h hc).2.2.2.1 (akey (okey (siteIx s) 0x02)) (by
      have : akey (okey (siteIx s) 0x02) = okey (siteIx s) 0x82 := by unfold akey okey; omega
      rw [this]; exact not_issueKeys (by decide) (by decide))
    unfold siteMask act
    rw [a, b]
  unfold Device.siteQuads
  rw [hm]

theorem Issued.leadQuad (h : Issued s Q d e) (hc : Covers s Q d) : e.leadQuad s = d.leadQuad s :=
  (h hc).2.2.2.1 _ (not_issueKeys (by decide) (by decide))

theorem Issued.covers (h : Issued s Q d e) (hc : Covers s Q d) : Covers s Q e := by
  unfold Covers
  rw [h.siteQuads hc, h.leadQuad hc]
  exact hc

theorem Issued.refl : Issued s Q d d := fun _ => ⟨rfl, fun _ _ => rfl, fun _ _ => rfl, fun _ _ => rfl, rfl⟩

theorem Issued.trans (h : Issued s Q d e) (g : Issued s Q e f) : Issued s Q d f := by
  intro hc
  obtain ⟨h1, h2, h3, h4, h5⟩ := h hc
  obtain ⟨g1, g2, g3, g4, g5⟩ := g (h.covers hc)
  refine ⟨?_, fun j hj => (g2 j hj).trans (h2 j hj), fun q hq => (g3 q hq).trans (h3 q hq), fun k hk => (g4 k hk).trans (h4 k hk),
    g5.trans h5⟩
  rw [h1] at g1
  exact g1

theorem Issued.w {q : Nat} (x : Nat) (hq : Covers s Q d → q ∈ Q) (hx : x ∈ issueSubs) (v : Nat) : Issued s Q d (d.w (quadIx q) x v) :=
  fun hc => ⟨rfl, fun _ _ => rfl, fun _ _ => rfl, fun _ hk => get_put_ne d (fun a => hk (by rw [a]; exact issueKeys_mem (hq hc) hx)) v, rfl⟩

theorem Issued.setSeq (z : Seq) (hz : z.request = (d.seqOf s).request) : Issued s Q d (d.setSeq s z) :=
  fun _ => ⟨rfl, fun _ hj => seqOf_setSeq_ne d hj z, fun _ _ => rfl, fun _ _ => rfl, by rw [seqOf_setSeq, hz]⟩

/-- An update after the sequencer has been set. -/
theorem Issued.afterSeq {z : Seq} (h : Issued s Q (d.setSeq s z) e) (hz : z.request = (d.seqOf s).request := by rfl) :
    Issued s Q d e :=
  (Issued.setSeq z hz).trans h

/-- The sequencer set after an update. -/
theorem Issued.thenSeq (h : Issued s Q d e) (z : Seq) (hz : z.request = (e.seqOf s).request) : Issued s Q d (e.setSeq s z) :=
  h.trans (Issued.setSeq z hz)

theorem Issued.setStream {q : Nat} (hq : Covers s Q d → q ∈ Q) (x : Stream) : Issued s Q d (d.setStream q x) :=
  fun hc => ⟨rfl, fun _ _ => rfl, fun j hj => streamOf_setStream_ne d (fun a => hj (by rw [a]; exact hq hc)) x, fun _ _ => rfl, rfl⟩

theorem Issued.ite {c : Prop} [Decidable c] {d e e' : Device} (h : Issued s Q d e) (h' : Issued s Q d e') :
    Issued s Q d (if c then e else e') := by
  split
  · exact h
  · exact h'

/-- `each` over updates at quads of the list. -/
theorem Issued.each {g : Nat → Device → Device} {ns : List Nat} (h : ∀ n ∈ ns, ∀ e, Issued s Q e (g n e)) : Issued s Q d (Device.each g ns d) := by
  induction ns generalizing d with
  | nil => exact Issued.refl
  | cons n l ih =>
    exact (h n (List.mem_cons_self ..) d).trans (ih fun m hm => h m (List.mem_cons_of_mem _ hm))

/-- Over the site's quads. -/
theorem Issued.eachQuad {g : Nat → Device → Device} (h : ∀ n ∈ Q, ∀ e, Issued s Q e (g n e)) : Issued s Q d (Device.each g (d.siteQuads s) d) :=
  fun hc => Issued.each (fun n hn e => h n (hc.2 n hn) e) hc

theorem leadMem : Covers s Q d → d.leadQuad s ∈ Q := fun hc => hc.1

/-! ## The operations of issue -/

theorem takeHeader_issued : Issued s Q d (takeHeader s d) := Issued.setSeq _ rfl
theorem pushEffect_issued (x : Effect) : Issued s Q d (pushEffect s x d) := Issued.setSeq _ rfl
theorem stopIssue_issued : Issued s Q d (stopIssue s d) := Issued.setSeq _ rfl
theorem spend_issued (n : Nat) (b : Bool) : Issued s Q d (spend s n b d) := Issued.setSeq _ rfl
theorem nextBlock_issued : Issued s Q d (nextBlock s d) := Issued.setSeq _ rfl
theorem endEarly_issued : Issued s Q d (endEarly s d) := Issued.setSeq _ rfl
theorem pushLoop_issued (l : LoopEntry) : Issued s Q d (pushLoop s l d) := Issued.setSeq _ rfl
theorem pushVectors_issued (a b c : Nat) (r : Bool) (u : Option Nat) : Issued s Q d (pushVectors s a b c r u d) := Issued.setSeq _ rfl

theorem issueError_issued (a b : Nat) : Issued s Q d (issueError s a b d) := by
  unfold issueError issueErrorAt
  exact (pushEffect_issued _).trans stopIssue_issued

theorem effectBlock_issued (x : Effect) : Issued s Q d (effectBlock s x d) :=
  ((pushEffect_issued x).trans (spend_issued _ _)).trans nextBlock_issued

theorem vectorBlock_issued (n i j : Nat) (r : Bool) (u : Option Nat) : Issued s Q d (vectorBlock s n i j r u d) :=
  Issued.ite ((spend_issued _ _).trans nextBlock_issued)
    (((pushVectors_issued _ _ _ _ _).trans (spend_issued _ _)).trans nextBlock_issued)

theorem armStall_issued (q : Nat) : Issued s Q d (armStall s q d) := by
  unfold armStall
  dsimp only
  split
  · split
    · exact Issued.setSeq _ rfl
    · split
      · exact Issued.setSeq _ rfl
      · exact Issued.refl
  · exact Issued.refl

theorem settlePos_issued {q : Nat} (hq : q ∈ Q) : Issued s Q d (settlePos s q d) := by
  unfold settlePos
  exact Issued.ite ((Issued.setStream (fun _ => hq) _).trans (armStall_issued q)) Issued.refl

theorem settlePositions_issued : Issued s Q d (settlePositions s d) := Issued.eachQuad fun _ hq _ => settlePos_issued hq

theorem redirectQuad_issued {t q : Nat} (hq : q ∈ Q) : Issued s Q d (redirectQuad s t q d) := by
  unfold redirectQuad
  dsimp only
  exact ((Issued.setStream (fun _ => hq) _).trans (Issued.w 0x7A (fun _ => hq) (by decide) _)).trans (armStall_issued q)

theorem gotoBlock_issued (t : Nat) : Issued s Q d (gotoBlock s t d) := by
  unfold gotoBlock
  dsimp only
  refine Issued.ite (Issued.setSeq _ rfl) ?_
  intro hc
  exact ((Issued.setSeq { d.seqOf s with next := t, streamNext := t } rfl).trans
    (Issued.each (g := redirectQuad s t) fun n hn _ => redirectQuad_issued (hc.2 n hn))) hc

theorem takeBranch_issued (b : Bool) (t : Nat) : Issued s Q d (takeBranch s b t d) :=
  Issued.ite (gotoBlock_issued t) nextBlock_issued

theorem setQuadState_issued {q : Nat} (hq : q ∈ Q) (v : Nat) : Issued s Q d (setQuadState q v d) :=
  Issued.ite Issued.refl (Issued.w 0x60 (fun _ => hq) (by decide) v)

theorem settleSeq_issued : Issued s Q d (settleSeq s d) := by
  intro hc
  have h1 : Issued s Q d (each (fun q e => setQuadState q (if q = d.leadQuad s then leadState (d.seqOf s) else 5) e)
      (d.siteQuads s) d) := Issued.eachQuad fun q hq e => setQuadState_issued hq _
  exact (((h1.trans (Issued.w 0x66 (fun _ => hc.1) (by decide) _)).trans (Issued.w 0x67 (fun _ => hc.1) (by decide) _)).trans
    (Issued.w 0x6C (fun _ => hc.1) (by decide) _)) hc

theorem setCounter_issued (k v : Nat) : Issued s Q d (setCounter s k v d) := Issued.w 0x68 leadMem (by decide) _
theorem setFlag_issued (k : Nat) (v : Bool) : Issued s Q d (setFlag s k v d) := Issued.w 0x69 leadMem (by decide) _

theorem settleCapture_issued : Issued s Q d (settleCapture s d) :=
  Issued.eachQuad fun _ hq _ => Issued.w 0x7D (fun _ => hq) (by decide) _

theorem beginCapture_issued (a b : Nat) : Issued s Q d (beginCapture s a b d) :=
  Issued.afterSeq (z := { d.seqOf s with captures := (d.seqOf s).captures ++ [⟨a, b, false⟩] }) settleCapture_issued

theorem endCapture_issued : Issued s Q d (endCapture s d) := by
  unfold endCapture
  refine Issued.trans (Issued.setSeq _ ?_) settleCapture_issued
  rfl

/-- A return to a point of the pattern. -/
theorem restoreSnap_issued (x : IssueSnap) : Issued s Q d (restoreSnap s x d) := by
  unfold restoreSnap
  dsimp only
  refine Issued.trans ?_ settleCapture_issued
  intro hc
  refine (((Issued.setSeq _ ?_).trans (Issued.w 0x68 (fun _ => hc.1) (by decide) _)).trans
    (Issued.w 0x69 (fun _ => hc.1) (by decide) _)) hc
  rfl

theorem addQuads_issued {sub : Nat} (hs : sub ∈ issueSubs) (b n : Nat) : Issued s Q d (addQuads s sub b n d) :=
  Issued.eachQuad fun _ hq _ => Issued.w sub (fun _ => hq) hs _

theorem squashTo_issued (kept gone : List Item) : Issued s Q d (squashTo s kept gone d) := by
  unfold squashTo
  dsimp only
  refine Issued.trans (e := each (fun q e => e.setStream q { e.streamOf q with
      decoded := (e.streamOf q).decoded.take (kept.filterMap Item.section?).length }) (d.siteQuads s) d)
    (Issued.eachQuad fun q hq e => Issued.setStream (fun _ => hq) _) ?_
  refine Issued.trans (Issued.setSeq _ ?_) (addQuads_issued (by decide) _ _)
  rfl

theorem issueErrorAt_issued (a b q : Nat) : Issued s Q d (issueErrorAt s a b q d) := (pushEffect_issued _).trans stopIssue_issued

/-- A LOOP put at fault. -/
theorem failLoop_issued (b : Nat) : Issued s Q d (failLoop s b d) := by
  unfold failLoop
  dsimp only
  split
  all_goals
    refine Issued.trans (((squashTo_issued _ _).trans (restoreSnap_issued _)).trans (Issued.setSeq _ ?_)) stopIssue_issued
    rfl

theorem checkLoops_issued (due : List LoopEntry) : Issued s Q d (checkLoops s due d) := by
  unfold checkLoops
  split
  · exact failLoop_issued _
  · exact Issued.refl

theorem captureDoneOp_issued : Issued s Q d (captureDoneOp s d) := by
  unfold captureDoneOp
  dsimp only
  split
  · exact Issued.refl
  · refine Issued.trans (Issued.setSeq _ ?_) (checkLoops_issued _)
    rfl

/-! ## A block that issues -/

/-- A block that issues with no error does what its body says, and the positions and the objects follow. -/
theorem issue_issues {w : VWord} {payload ok target : Bool} (h : d.issues s w payload ok target) (body : Device → Device)
    (hr : ((settlePositions s (body (d.headerTaken s w))).seqOf s).request = none) :
    issue s w payload ok target body d = settleSeq s (settlePositions s (body (d.headerTaken s w))) := by
  obtain ⟨h1, h2, h3, h4, h5, _⟩ := h
  have hs : (w.ssm && (d.seqOf s).arm.isSome) = false := by
    rw [Bool.eq_false_iff]
    intro hh
    rw [Bool.and_eq_true] at hh
    exact h2 hh
  have ht : (target && decide ((d.seqOf s).blocks ≤ w.t.toNat)) = false := by
    rw [Bool.eq_false_iff]
    intro hh
    rw [Bool.and_eq_true, decide_eq_true_eq] at hh
    exact absurd (h5 hh.1) (by omega)
  unfold headerTaken at hr ⊢
  unfold issue
  simp only [h1, h3, h4, hs, ht, Bool.not_true, Bool.false_eq_true, if_false, chooseJump, hr]

theorem headerTaken_issued (w : VWord) : Issued s Q d (d.headerTaken s w) := by
  unfold headerTaken
  split
  · exact Issued.afterSeq (z := { d.seqOf s with nextMark := true }) takeHeader_issued
  · exact takeHeader_issued

/-- A waiting event jump is neither made nor taken by a body that keeps to what issue may change. -/
theorem settled_request {w : VWord} {payload ok target : Bool} (h : d.issues s w payload ok target) {body : Device → Device}
    (hb : ∀ Q e, Issued s Q e (body e)) : ((settlePositions s (body (d.headerTaken s w))).seqOf s).request = none := by
  have hc : Covers s (d.leadQuad s :: d.siteQuads s) d := ⟨List.mem_cons_self .., fun q hq => List.mem_cons_of_mem _ hq⟩
  rw [((((headerTaken_issued w).trans (hb _ _)).trans settlePositions_issued) hc).2.2.2.2]
  exact h.2.2.2.2.2

/-- A block that issues changes only what issue may change. -/
theorem issue_frame {w : VWord} {payload ok target : Bool} (h : d.issues s w payload ok target) {body : Device → Device}
    (hb : ∀ Q e, Issued s Q e (body e)) : issueFrame s d (issue s w payload ok target body d) := by
  have hc : Covers s (d.leadQuad s :: d.siteQuads s) d := ⟨List.mem_cons_self .., fun q hq => List.mem_cons_of_mem _ hq⟩
  rw [issue_issues h body (settled_request h hb)]
  obtain ⟨g1, g2, g3, g4, _⟩ :=
    ((((headerTaken_issued w).trans (hb _ _)).trans settlePositions_issued).trans settleSeq_issued) hc
  exact ⟨g1, g2, g3, g4⟩

/-! ## The sequencer after an issue -/

theorem settleSeq_sites : (settleSeq s d).sites = d.sites := by
  unfold settleSeq
  simp only [w_sites]
  exact each_keep (fun e => e.sites) (fun q e => by
    unfold setQuadState
    split
    · rfl
    · exact w_sites ..) _ _

theorem seqOf_sites {d e : Device} (h : d.sites = e.sites) (j : Nat) : d.seqOf j = e.seqOf j := by
  unfold seqOf
  rw [h]

theorem armStall_seq (q : Nat) : ∃ a, (armStall s q d).seqOf s = { d.seqOf s with arm := a } := by
  unfold armStall
  dsimp only
  split
  · split
    · exact ⟨_, seqOf_setSeq ..⟩
    · split
      · exact ⟨_, seqOf_setSeq ..⟩
      · exact ⟨(d.seqOf s).arm, rfl⟩
  · exact ⟨(d.seqOf s).arm, rfl⟩

theorem settlePos_seq (q : Nat) : ∃ a, (settlePos s q d).seqOf s = { d.seqOf s with arm := a } := by
  have h (x : Stream) : (d.setStream q x).seqOf s = d.seqOf s := rfl
  have g (c : Prop) [Decidable c] (x : Stream) : ∃ a, (if c then armStall s q (d.setStream q x) else d).seqOf s =
      { d.seqOf s with arm := a } := by
    split
    · obtain ⟨a, ha⟩ := armStall_seq (s := s) (d := d.setStream q x) q
      exact ⟨a, by rw [ha, h]⟩
    · exact ⟨(d.seqOf s).arm, rfl⟩
  exact g _ _

/-- Settling the positions and the objects leaves of the sequencer all but the stall arm. -/
theorem settled_seq (s : Nat) (d : Device) :
    ∃ a, (settleSeq s (settlePositions s d)).seqOf s = { d.seqOf s with arm := a } := by
  rw [seqOf_sites settleSeq_sites]
  unfold settlePositions
  refine each_inv (P := fun e => ∃ a, e.seqOf s = { d.seqOf s with arm := a }) ?_ ⟨(d.seqOf s).arm, rfl⟩
  rintro q _ e ⟨a, ha⟩
  obtain ⟨b, hb⟩ := settlePos_seq (s := s) (d := e) q
  exact ⟨b, by rw [hb, ha]⟩

theorem takeHeader_seq (s : Nat) (d : Device) :
    ∃ n k l, ((d.seqOf s).earlyLeft = 0 → k = 0) ∧
      (takeHeader s d).seqOf s = { d.seqOf s with streamNext := n, earlyLeft := k, earlyNext := l } := by
  refine ⟨_, _, _, ?_, seqOf_setSeq ..⟩
  intro h
  simp only [h, ite_self]

/-- Taking the header leaves of the sequencer all but the stream order, the splice buffer and the mark. -/
theorem headerTaken_seq (s : Nat) (w : VWord) (d : Device) :
    ∃ n k l m, ((d.seqOf s).earlyLeft = 0 → k = 0) ∧ (d.headerTaken s w).seqOf s =
      { d.seqOf s with streamNext := n, earlyLeft := k, earlyNext := l, nextMark := m } := by
  unfold headerTaken
  split
  · obtain ⟨n, k, l, hk, h⟩ := takeHeader_seq s (d.setSeq s { d.seqOf s with nextMark := true })
    exact ⟨n, k, l, true, by rw [seqOf_setSeq] at hk; exact hk, by rw [h, seqOf_setSeq]⟩
  · obtain ⟨n, k, l, hk, h⟩ := takeHeader_seq s d
    exact ⟨n, k, l, (d.seqOf s).nextMark, hk, h⟩

/-- A redirect leaves of the sequencer all but the stall arm. -/
theorem redirectQuad_seq (s t q : Nat) (d : Device) : ∃ a, (redirectQuad s t q d).seqOf s = { d.seqOf s with arm := a } := by
  unfold redirectQuad
  exact armStall_seq q

/-- A branch to block `t` leaves of the sequencer all but the next block, the stream order and the stall arm. -/
theorem gotoBlock_seq (s t : Nat) (d : Device) :
    ∃ n a, (gotoBlock s t d).seqOf s = { d.seqOf s with next := t, streamNext := n, arm := a } := by
  unfold gotoBlock
  dsimp only
  split
  · exact ⟨(d.seqOf s).streamNext, (d.seqOf s).arm, seqOf_setSeq ..⟩
  · refine ⟨t, ?_⟩
    refine each_inv (P := fun e => ∃ a, e.seqOf s = { d.seqOf s with next := t, streamNext := t, arm := a }) ?_
      ⟨(d.seqOf s).arm, seqOf_setSeq ..⟩
    rintro q _ e ⟨a, ha⟩
    obtain ⟨b, hb⟩ := redirectQuad_seq s t q e
    exact ⟨b, by rw [hb, ha]⟩

/-! ## The outcome of a command that issues a block -/

theorem issueFrame_boot (h : issueFrame s d e) : e.boot = d.boot := by rw [h.1]

/-- A block that issues goes on with the block that its body gives. -/
theorem exec_issue {st : State} {s : Nat} {w : VWord} {payload ok target : Bool} {body : Device → Device}
    (hr : st.running) (h : st.dev.issues s w payload ok target) (hb : ∀ Q e, Issued s Q e (body e)) :
    ∃ t, nextDev st (issue s w payload ok target body st.dev) = .next t ∧ t.pending = st.pending ∧ issueFrame s st.dev t.dev ∧
      t.dev = settleSeq s (settlePositions s (body (st.dev.headerTaken s w))) := by
  have hf := issue_frame h hb
  refine ⟨_, nextDev_next hr (issueFrame_boot hf), rfl, hf, issue_issues h body (settled_request h hb)⟩

theorem onPrediction_header (s : Nat) (w : VWord) (d : Device) : (d.headerTaken s w).onPrediction s = d.onPrediction s := by
  obtain ⟨n,k,l,m,_,h⟩ := headerTaken_seq s w d
  unfold onPrediction; rw [h]

theorem issueTime_header (s : Nat) (w : VWord) (d : Device) : (d.headerTaken s w).issueTime s = d.issueTime s := by
  obtain ⟨n,k,l,m,_,h⟩ := headerTaken_seq s w d
  unfold issueTime; rw [h]
  have : (d.headerTaken s w).cycle = d.cycle := by unfold headerTaken takeHeader; split <;> rfl
  rw [this]

/-- A block whose effect rides on its boundary has issued. -/
theorem effectBlock_done (s : Nat) (w : VWord) (x : Effect) (hf : issueFrame s d e)
    (he : e = settleSeq s (settlePositions s (effectBlock s x (d.headerTaken s w)))) : effectIssued s d e x := by
  refine ⟨hf, ?_⟩
  obtain ⟨n,k,l,m,hk,h⟩ := headerTaken_seq s w d
  obtain ⟨a, ha⟩ := settled_seq s (effectBlock s x (d.headerTaken s w))
  rw [he, ha]
  simp only [effectBlock, nextBlock, spend, pushEffect, seqOf_setSeq, h, onPrediction_header]
  refine ⟨trivial, _, ?_, rfl⟩
  intro h0
  have : ((d.headerTaken s w).seqOf s).earlyLeft = 0 := by rw [h]; exact hk h0
  simp only [readyTime, this, ne_eq, not_true_eq_false, if_false, issueTime_header]

end Sys2Proof.Machine.Device
end

