-- ==== Sys2Proof/WellFormed.lean ====
section
/-!
DEFINITION. Which commands are well formed: operands that the spec's layouts admit. A command that is not well formed
still has a meaning; the check is for statements that need an operand's layout.
-/
namespace Sys2Proof

/-- A datagram's data holds as many bytes as its length field says (R33, R34). -/
def Datagram.wf (d : Datagram) : Bool := d.data.length == d.len.toNat % 2 ^ 14

/-- An SSP frame carries as many data bytes as it announces (R352). -/
def SspFrame.wf (f : SspFrame) : Bool := f.data.length == f.len.toNat

/-- An opcode that no frame of the SSP has (R352). -/
def SspCut.wf : SspCut → Bool
  | .opcode op _ => op == 0 || decide (6 ≤ op.toNat)
  | _ => true

/-- An instruction word keeps its reserved bits 0 (R123). -/
def VWord.wf (w : VWord) : Bool := w.rsv == 0

/-- Every command's operands fit the layouts the spec gives them. -/
def Instr.wf : Instr → Bool
  | .lemileFrame _ bytes => decide (bytes.length ≤ 65536)
  | .drd d => d.wf
  | .dwr d => d.wf
  | .drr d => d.wf
  | .drw d => d.wf
  | .objectWrite _ _ _ data => decide (data.length ≤ 1024)
  | .bwr _ d => d.wf
  | .brq d => d.wf
  | .brd d => d.wf
  | .evt d => d.wf
  | .sync d _ => d.wf && d.data.length == 52
  | .trd d => d.wf
  | .roleResponse _ data => data.length == 34
  | .vec _ w => w.wf
  | .rpt _ w => w.wf
  | .loop _ w => w.wf
  | .endl _ w => w.wf
  | .call _ w => w.wf
  | .ret _ w => w.wf
  | .jmp _ w => w.wf && w.a == 0
  | .jmpArm _ w => w.wf && w.a == 1
  | .jmpDisarm _ w => w.wf && w.a == 2
  | .bif _ w => w.wf
  | .matchBlock _ w => w.wf
  | .tset _ w => w.wf
  | .lset _ w => w.wf
  | .wait _ w => w.wf
  | .signalPulse _ w => w.wf && w.b == 0
  | .signalSet _ w => w.wf && w.b == 1
  | .signalClear _ w => w.wf && w.b == 2
  | .captArm _ w => w.wf && w.a.getLsbD 0
  | .captAcq _ w => w.wf && w.a.getLsbD 1
  | .captFwclr _ w => w.wf && w.a.getLsbD 2
  | .captLog _ w => w.wf && decide (w.a.toNat / 8 % 4 ≠ 0)
  | .halt _ w => w.wf
  | .illegalOpcode _ opc _ => opc == 0 || decide (16 ≤ opc.toNat)
  | .dpsUpdateTick _ _ charge => charge.length == 64
  | .monitorTick _ samples => samples.length == 4
  | .sensorConversion _ conv => conv.length == 8
  | .sensorSelfTest _ deviations => deviations.length == 8
  | .sspDiscard cut => cut.wf
  | .windowWrite _ _ data => decide (data.length ≤ 65536)
  | .sspRead f => f.wf
  | .sspWrite f => f.wf
  | .sspRangeRead f => f.wf
  | .sspRangeWrite f => f.wf
  | .sspStatus f => f.wf
  | .pageFill _ _ bytes => bytes.length == 65536
  | .calibrationRequest _ v => decide (v.toNat < 1024)
  | _ => true

end Sys2Proof
end

