-- ==== Sys2Proof/Tests/Slice0.lean ====
section
/-!
SUPPORT. Tests: ill-formed terms that the checks refuse, instruction words written out from R123 and R124, single steps with
their expected results from the spec, and for every statement states that meet its premises.
-/
namespace Sys2Proof.Tests
open Sys2Proof Sys2Proof.Machine Sys2Proof.Machine.Device

-- One theorem is checked at a time: checked together they take more threads than the memory holds.
set_option Elab.async false

/-- A part in READY, joined, with role OPERATOR on the SSP, and the objects `l`. -/
def device (l : List (Nat × Nat)) : Device :=
  { Device.reset with
    objs := l ++ [(okey 0x1100 0x05, 2), (okey 0x1200 0x01, 6)], refclk := .present, cycle := 100000000,
    boot := { BootState.init with released := 1 }, mem := { MemState.init with zeroFilled := 65535 } }

def at_ (l : List (Nat × Nat)) : State := { pending := [], dev := device l }

/-- The same with another part of the block changed. -/
def with_ (f : Device → Device) (l : List (Nat × Nat)) : State := { pending := [], dev := f (device l) }

def servicePort (p : Port) : Nat × Nat := (portKey p 0x1000 0x10, 3)

/-- The supervisor runs on CFE 0. -/
def supervised : List (Nat × Nat) := [(okey 0x1220 0x04, 0), (okey 0x1230 0x01, 1)]

/-- An instruction word with all fields 0. -/
def word0 : VWord :=
  { mode := false, res := false, ssm := false, pred := false, rsv := 0, a := 0, b := 0, n := 0, t := 0, x := 0, poisoned := false }

/-- Site 0, of quad 0, plays a pattern of four blocks and may issue. -/
def issuing (z : Seq) : State :=
  with_ (fun d => ((d.setSeq 0 { z with phase := .play, blocks := 4, issuing := true }).setStream 0
    { Stream.init with length := 4096, fetched := 4096 })) [(okey 0x2400 0x03, 0), (okey 0x2400 0x04, 0), (okey 0x2400 0x05, 2), (akey (okey 0x2400 0x01), 1)]

/-- SDRAM channel `k` populated and in state `s`. -/
def channelAt (k s : Nat) : List (Nat × Nat) := [(okey (0x1610 + k) 0x03, s), (akey (okey (0x1610 + k) 0x01), 1)]

/-- Site 127 of quad 0 in state `s`, with working flow state `f` and one credit in its result queue. -/
def siteAt (s : Nat) (f : Flow) (l : List (Nat × Nat)) : State :=
  with_ (fun d => d.setFlow 127 f)
    ([(okey (siteIx 127) 0x03, 0), (okey (siteIx 127) 0x04, 0), (okey (siteIx 127) 0x05, s), (okey (siteIx 127) 0x06, 1), (okey 0x1310 0x0B, 0), (akey (okey (siteIx 127) 0x01), 1), (akey (okey (siteIx 127) 0x19), 1), (qkey 0 0x13, 1), (qkey 0 0x14, 1)] ++ l)

/-- A flow at the boundary of a step, or running it, with record `r`. -/
def stepOf (p : FlowPhase) (r : Nat) : Flow := { Flow.init with phase := p, record := r }

/-- The same part with role SERVICE on the ring, both links up, and ring record `r`. -/
def onRing (r : RingState) (l : List (Nat × Nat)) : Device :=
  (with_ (fun d => { d with ring := r }) ([servicePort .ring, (okey 0x1100 0x0A, 3)] ++ l)).dev

/-! ## Premises: the sequencer at issue -/

theorem meets_VectorsIssue :
    (issuing Seq.init).running ∧
    (issuing Seq.init).dev.issues 0 { word0 with n := 0xFFFFFFFF, x := 0xFFFF } true
      (flagsOk { word0 with n := 0xFFFFFFFF, x := 0xFFFF } false false false &&
        fieldsOk { word0 with n := 0xFFFFFFFF, x := 0xFFFF } 0 0 all32 0 0xFFFF) false ∧
    (issuing Seq.init).dev.issues 0 word0 false (flagsOk word0 false false false && fieldsOk word0 0 0 all32 0 0xFFFF) false ∧
    (issuing Seq.init).dev.issues 0 { word0 with a := 15, n := 1 } false
      (flagsOk { word0 with a := 15, n := 1 } false false false && fieldsOk { word0 with a := 15, n := 1 } 0x0F 0 all32 0 0xFFFF) false ∧
    (issuing Seq.init).dev.issues 0 { word0 with a := 7 } true
      (flagsOk { word0 with a := 7 } false false false && fieldsOk { word0 with a := 7 } 0x0F 0 all32 0 0xFFFF) false := by
  simp only [State.running, Device.issues]
  and_intros <;> decide +kernel

/-- A word that issues as a command without flags of its own, with operands inside the masks given. -/
def plain (w : VWord) (a b n t x : Nat) (more : Bool) : Bool := flagsOk w false false false && fieldsOk w a b n t x && more

theorem meets_BoundaryEffectsIssue :
    let st := issuing Seq.init
    st.running ∧ st.dev.onPrediction 0 = false ∧
    st.dev.issues 0 { word0 with a := 63 } false (plain { word0 with a := 63 } 0x3F 0 0 0 0 true) false ∧
    st.dev.issues 0 { word0 with a := 15 } false (plain { word0 with a := 15 } 0x0F 0 0 0 0 true) false ∧
    st.dev.issues 0 { word0 with a := 31, b := 0 } false (plain { word0 with a := 31 } 0x1F 3 0 0 0 ((0 : BitVec 8) != 3)) false ∧
    st.dev.issues 0 { word0 with a := 31, b := 1 } false (plain { word0 with a := 31, b := 1 } 0x1F 3 0 0 0 true) false ∧
    st.dev.issues 0 { word0 with a := 31, b := 2 } false (plain { word0 with a := 31, b := 2 } 0x1F 3 0 0 0 true) false ∧
    st.dev.issues 0 { word0 with a := 23 } false (plain { word0 with a := 23 } 0x1F 0 0 0 0 (bitf 23 3 2 != 3)) false ∧
    ((23 : BitVec 8) ||| 1 = 23 ∧ (23 : BitVec 8) ||| 2 = 23 ∧ (23 : BitVec 8) ||| 4 = 23) ∧
    st.dev.issues 0 { word0 with a := 7, b := 3, n := 0xFFFFFFFF, x := 0x87 } false
      (plain { word0 with a := 7, b := 3, n := 0xFFFFFFFF, x := 0x87 } 7 3 all32 0 0x87 true) false ∧
    st.dev.issues 0 { word0 with a := 255 } false (plain { word0 with a := 255 } 0xFF 0 0 0 0 true) false ∧
    16 ≤ (16 : BitVec 8).toNat ∧ st.dev.issues 0 word0 false true false := by
  simp only [State.running, Device.issues]
  and_intros <;> decide +kernel

/-- A loop stack of 16 entries. -/
def deepLoops : List LoopEntry := (List.range 16).map fun k => ⟨k + 1, false, false, false, 1, 3⟩

/-- The same site with bytes of its block table and stream in SDRAM. -/
def withBlocks (l : List (Nat × Byte)) (z : Seq) : State :=
  { issuing z with dev := { (issuing z).dev with mem := { (issuing z).dev.mem with sdram := l } } }

theorem meets_LoopsIssue :
    let w := { word0 with n := 1, t := 3 }
    let matching := withBlocks [(16, 64), (64, 4), (72, 1)]
    let held (copied : Bool) : Seq := { Seq.init with captures := [⟨0, 4, copied⟩] }
    let ok (w : VWord) : Bool := flagsOk w false true false && fieldsOk w 0x8F 0 all32 all32 0 && !(bit w.a.toNat 7 && w.n != 0)
    (issuing Seq.init).running ∧
    (issuing Seq.init).dev.issues 0 { word0 with t := 3 } false (ok { word0 with t := 3 }) true ∧
    (issuing Seq.init).dev.issues 0 { w with res := true } false (ok { w with res := true }) true ∧
    ((issuing Seq.init).dev.issues 0 w false (ok w) true ∧ (issuing Seq.init).dev.captureShort 0 1 3 = none ∧
      bodyHeld Seq.init 1 3 = none) ∧
    ((withBlocks [(26, 2)] Seq.init).dev.issues 0 w false (ok w) true ∧
      (withBlocks [(26, 2)] Seq.init).dev.captureShort 0 1 3 = some 0) ∧
    ((matching (held true)).running ∧ (matching (held true)).dev.issues 0 w false (ok w) true ∧
      bodyHeld (held true) 1 3 = some ⟨0, 4, true⟩ ∧ (matching (held true)).dev.endlMatches 0 1 3 = true) ∧
    ((issuing (held true)).dev.issues 0 w false (ok w) true ∧ (issuing (held true)).dev.endlMatches 0 1 3 = false) ∧
    ((issuing (held false)).dev.issues 0 w false (ok w) true ∧ bodyHeld (held false) 1 3 = some ⟨0, 4, false⟩) ∧
    ((issuing { Seq.init with loops := deepLoops }).dev.issues 0 w false (ok w) true ∧ deepLoops.length = 16) := by
  simp only [State.running, Device.issues]
  and_intros <;> decide +kernel

theorem meets_LoopsIssue_endl :
    let w := { word0 with t := 1 }
    let ok (w : VWord) : Bool := flagsOk w false false false && fieldsOk w 0 0 0 all32 0
    let closing : Seq := { Seq.init with loops := [⟨1, false, true, true, 1, 3⟩] }
    let marked : Seq := { closing with items := [.effect 0 (.captureMark IssueSnap.init) false 5] }
    (issuing { Seq.init with loops := [⟨2, false, false, false, 1, 3⟩] }).dev.issues 0 w false (ok w) true ∧
    (issuing { Seq.init with loops := [⟨1, false, false, false, 1, 3⟩] }).dev.issues 0 w false (ok w) true ∧
    ((withBlocks [(16, 64), (64, 4), (72, 1)] closing).dev.issues 0 w false (ok w) true ∧
      (withBlocks [(16, 64), (64, 4), (72, 1)] closing).dev.endlMatches 0 1 3 = true) ∧
    ((issuing closing).dev.issues 0 w false (ok w) true ∧ (issuing closing).dev.endlMatches 0 1 3 = false ∧
      splitLoop 0 closing.items = none) ∧
    ((issuing marked).dev.issues 0 w false (ok w) true ∧ (issuing marked).dev.endlMatches 0 1 3 = false ∧
      splitLoop 0 marked.items = some ([], (IssueSnap.init, false, 5), [])) ∧
    (issuing Seq.init).dev.issues 0 word0 false (ok word0) true := by
  simp only [Device.issues]
  and_intros <;> decide +kernel

theorem meets_CallsAndJumpsIssue :
    let w := { word0 with t := 3 }
    let deep := { Seq.init with calls := (List.range 16).map fun k => (⟨k, 0, false, 0⟩ : CallEntry) }
    let held := { Seq.init with captures := [⟨0, 4, true⟩] }
    let callOk (w : VWord) : Bool := flagsOk w false true false && fieldsOk w 0 0 0 all32 0
    let retOk (w : VWord) : Bool := flagsOk w false false false && fieldsOk w 0 0 0 0 0
    (issuing Seq.init).running ∧
    ((issuing Seq.init).dev.issues 0 w false (callOk w) true ∧ (issuing Seq.init).dev.isCaptured 0 0 = false) ∧
    ((issuing held).dev.issues 0 w false (callOk w) true ∧ (issuing held).dev.isCaptured 0 0 = true) ∧
    ((issuing deep).dev.issues 0 w false (callOk w) true ∧ deep.calls.length = 16) ∧
    (issuing { Seq.init with calls := [⟨2, 0, false, 0⟩] }).dev.issues 0 word0 false (retOk word0) false ∧
    (issuing { Seq.init with calls := [⟨2, 1, false, 0⟩] }).dev.issues 0 word0 false (retOk word0) false ∧
    (issuing Seq.init).dev.issues 0 word0 false (retOk word0) false ∧
    (issuing Seq.init).dev.issues 0 w false (jmpOk w) true ∧
    (issuing Seq.init).dev.issues 0 { w with a := 1, b := 15, mode := true } false (jmpOk { w with a := 1, b := 15, mode := true }) true ∧
    (issuing Seq.init).dev.issues 0 { word0 with a := 2 } false (jmpOk { word0 with a := 2 }) false := by
  simp only [State.running, Device.issues]
  and_intros <;> decide +kernel

theorem meets_ConditionalsIssue :
    let bifOk (w : VWord) : Bool := flagsOk w true false true && fieldsOk w 0x3F 3 0 all32 0 && selectOk w.a.toNat &&
      (!(bit w.b.toNat 1) || selectCounter w.a.toNat)
    let matchOk (w : VWord) : Bool := flagsOk w true false false && fieldsOk w 0x87 0x8F all32 0 0xFFFF
    let flying := { Seq.init with flights := [⟨0, 0, 100, 0, [], false, false, 0, true⟩] }
    let fail := { word0 with a := 0x20, mode := true, pred := true, t := 3 }
    let body := { word0 with a := 0x87, b := 0x8F, n := 2, x := 3 }
    (issuing Seq.init).running ∧ (issuing Seq.init).dev.onPrediction 0 = false ∧
    (issuing Seq.init).dev.issues 0 { word0 with a := 0x1F, b := 2, t := 3 } false (bifOk { word0 with a := 0x1F, b := 2, t := 3 }) true ∧
    (issuing Seq.init).dev.issues 0 { word0 with a := 0x21, t := 3 } false (bifOk { word0 with a := 0x21, t := 3 }) true ∧
    ((issuing flying).dev.issues 0 fail false (bifOk fail) true ∧ (issuing flying).dev.failKnown 0 = false ∧
      (issuing flying).dev.onPrediction 0 = false) ∧
    (issuing Seq.init).dev.issues 0 word0 false (matchOk word0) false ∧
    (issuing Seq.init).dev.issues 0 { word0 with mode := true } false (matchOk { word0 with mode := true }) false ∧
    ((issuing Seq.init).dev.issues 0 body true (matchOk body) false ∧ (issuing Seq.init).dev.captureShort 0 0 1 = none) := by
  simp only [State.running, Device.issues]
  and_intros <;> decide +kernel

/-! ## Premises: commits -/

theorem meets_CommitsWait :
    let site := at_ ([(okey (siteIx 127) 0x01, 1), (okey (siteIx 127) 0x09, 128), (okey (siteIx 127) 0x0A, 64), (okey (siteIx 127) 0x0B, 128)] ++ supervised)
    let level := at_ [(okey (quadIx 127) 0x14, 1)]
    (at_ []).running ∧ site.running ∧ level.running ∧
    ((at_ []).dev.accepts .ssp (quadIx 127) 0x1B 1 false ∧ timingCheck 127 (stage (timingKeys 127) (at_ []).dev) = 0) ∧
    ((at_ []).dev.accepts .ssp (dpsIx 63) 0x18 1 false ∧ dpsCheck 63 (stage (dpsKeys 63) (at_ []).dev) = 0) ∧
    ((at_ []).dev.accepts .ssp (tileIx 7) 0x31 1 false ∧ gangCheck 7 (stage (gangKeys 7) (at_ []).dev) = 0) ∧
    (site.dev.accepts .ssp (siteIx 127) 0x0F 1 false ∧
      siteCheck 127 (stage (siteKeys 127) (site.dev.dropPend (.site 127))) = 0) ∧
    (level.dev.accepts .ssp (quadIx 127) 0x16 1 false ∧ level.dev.o (quadIx 127) 0x14 ≠ 0 ∧
      levelCheck 127 (stage (levelKeys 127) level.dev) = 0) := by
  simp only [State.running, Device.accepts]
  and_intros <;> decide +kernel

theorem meets_CommitsAreRefused :
    let st := at_ [servicePort .ssp, (okey (quadIx 127) 0x20, 0), (okey (dpsIx 63) 0x01, 9), (okey (tileIx 7) 0x30, 9),
      (okey (quadIx 0) 0x11, 65535), (okey 0x1610 0x01, 3), (okey 0x1300 0x05, 0xFFFFFF)]
    st.running ∧
    (st.dev.accepts .ssp (quadIx 127) 0x1B 1 false ∧ timingCheck 127 (stage (timingKeys 127) st.dev) ≠ 0) ∧
    (st.dev.accepts .ssp (dpsIx 63) 0x18 1 false ∧ dpsCheck 63 (stage (dpsKeys 63) st.dev) ≠ 0) ∧
    (st.dev.accepts .ssp (tileIx 7) 0x31 1 false ∧ gangCheck 7 (stage (gangKeys 7) st.dev) ≠ 0) ∧
    (st.dev.accepts .ssp (siteIx 127) 0x0F 1 false ∧
      siteCheck 127 (stage (siteKeys 127) (st.dev.dropPend (.site 127))) ≠ 0) ∧
    (st.dev.accepts .ssp (quadIx 0) 0x16 1 false ∧ levelCheck 0 (stage (levelKeys 0) st.dev) ≠ 0) ∧
    (st.dev.accepts .ssp (clusterIx 31) 0x5E 1 false ∧ acqCheck 31 (stage (acqKeys 31) st.dev) ≠ 0) ∧
    (st.dev.accepts .ssp 0x1600 0x0F 1 false ∧ memoryCheck (stage memoryKeys st.dev) ≠ 0) ∧
    (st.dev.accepts .ssp 0x1300 0x0F 1 false ∧ thermalCheck (stage thermalKeys st.dev) ≠ 0) ∧
    (st.dev.accepts .ssp 0x1811 0x1F 1 false ∧ headCheck 1 (stage (headKeys 1) st.dev) ≠ 0) := by
  simp only [State.running, Device.accepts]
  and_intros <;> decide +kernel

theorem meets_CommitsApplyAtOnce :
    let st := at_ [servicePort .ssp, (okey (clusterIx 31) 0x41, 6), (okey (clusterIx 31) 0x5B, 2 ^ 128), (okey 0x1811 0x02, 120)]
    let waits := with_ (fun d => { d with pend := [.timing 127] }) []
    let passes := with_ (fun d => { stage (timingKeys 127) d with pend := [.timing 127] }) []
    st.running ∧
    (st.dev.accepts .ssp (clusterIx 31) 0x5E 1 false ∧ acqCheck 31 (stage (acqKeys 31) st.dev) = 0) ∧
    (st.dev.accepts .ssp 0x1300 0x0F 1 false ∧ thermalCheck (stage thermalKeys st.dev) = 0) ∧
    (st.dev.accepts .ssp 0x1811 0x1F 1 false ∧ headCheck 1 (stage (headKeys 1) st.dev) = 0) ∧
    (waits.running ∧ waits.dev.quadPlays 127 = false ∧ waits.dev.pends (.timing 127) = true ∧ timingCheck 127 waits.dev ≠ 0) ∧
    (passes.running ∧ passes.dev.quadPlays 127 = false ∧ passes.dev.pends (.timing 127) = true ∧
      timingCheck 127 passes.dev = 0) := by
  simp only [State.running, Device.accepts]
  and_intros <;> decide +kernel

/-! ## Premises: queues and memory -/

/-- The highest queue that firmware does not hold. -/
def topQueue : Nat := 262079

/-- A MANUAL queue of 64 entries in cluster SRAM with 4 resident entries, 8 credits outstanding and a host producer. -/
def queueState (l : List (Nat × Nat)) : State :=
  with_ (fun d => d.setQueue topQueue { QueueState.init with w2 := 9, rd2 := 5, eop := 9, eop2 := 9 })
    ((l ++ [(portKey .ssp 0x1700 0x01, topQueue), (akey (qkey topQueue 0x02), 1), (akey (qkey topQueue 0x04), 64), (akey (qkey topQueue 0x06), 0), (akey (qkey topQueue 0x07), 1), (qkey topQueue 0x10, 9), (qkey topQueue 0x11, 5), (qkey topQueue 0x12, 4), (qkey topQueue 0x13, 8), (qkey topQueue 0x14, 1)]).foldr (fun x m => Cells.write (resetValue x.1) x.1 x.2 m) [])

theorem meets_HostMovesQueuePointers :
    let d := (queueState []).dev
    let q := d.selected .ssp
    (queueState []).running ∧ q = topQueue ∧
    d.accepts .ssp 0x1701 0x20 0xFFFFFFFF (firmwareHeld q || d.grantForbidden q) ∧
    (d.accepts .ssp 0x1701 0x21 4 (firmwareHeld q || d.dequeueForbidden q 4) ∧ d.qact q 0x06 ≠ 1) ∧
    (d.accepts .ssp 0x1701 0x22 0x1000008 (firmwareHeld q || d.enqueueForbidden q 0x1000008) ∧ 0x1000008 % 2 ^ 24 ≠ 0) ∧
    (d.accepts .ssp 0x1701 0x22 8 (firmwareHeld q || d.enqueueForbidden q 8) ∧ bit 8 24 = false) := by
  simp only [State.running, Device.accepts]
  and_intros <;> decide +kernel

theorem meets_EntryEnqueuedAdvancesW :
    let sdramQueue := at_ ([(akey (qkey 0 0x04), 64), (qkey 0 0x13, 1), (qkey 0 0x14, 1), (okey 0x1640 0x01, 2)] ++ channelAt 0 3)
    let noMemory := at_ [(akey (qkey 0 0x04), 64), (qkey 0 0x13, 2), (qkey 0 0x14, 1)]
    let waits := { sdramQueue with dev := sdramQueue.dev.setQueue 0 { sdramQueue.dev.queueOf 0 with waiting := [([], true, none)] } }
    (queueState []).running ∧ (at_ []).running ∧ (at_ []).dev.canReserve 0 1 = false ∧
    ((queueState []).dev.canReserve topQueue 1 = true ∧ 0 < (queueState []).dev.outstanding topQueue ∧
      (queueState []).dev.queuePlacement topQueue ≠ 0) ∧
    (queueState []).dev.foreignProducer topQueue = true ∧ (queueState []).dev.copiesDiffer topQueue = false ∧
    (sdramQueue.running ∧ sdramQueue.dev.foreignProducer 0 = true ∧ sdramQueue.dev.canReserve 0 1 = true ∧
      0 < sdramQueue.dev.outstanding 0 ∧ sdramQueue.dev.copiesDiffer 0 = false ∧ sdramQueue.dev.queuePlacement 0 = 0 ∧
      sdramQueue.dev.tileTakes 0 = true ∧ sdramQueue.dev.powerState 0 ≠ 5 ∧ sdramQueue.dev.dormantHeld 0 = false) ∧
    (sdramQueue.dev.bodyTakes 0 = true ∧ (sdramQueue.dev.queueOf 0).waiting = []) ∧
    ((queueState []).dev.bodyTakes topQueue = true ∧ ((queueState []).dev.queueOf topQueue).waiting = []) ∧
    (noMemory.running ∧ noMemory.dev.foreignProducer 0 = true ∧ noMemory.dev.canReserve 0 1 = true ∧
      0 < noMemory.dev.outstanding 0 ∧ noMemory.dev.copiesDiffer 0 = false ∧ noMemory.dev.bodyTakes 0 = false) ∧
    (waits.running ∧ waits.dev.foreignProducer 0 = true ∧ waits.dev.canReserve 0 1 = true ∧ 0 < waits.dev.outstanding 0 ∧
      waits.dev.copiesDiffer 0 = false ∧ (waits.dev.queueOf 0).waiting ≠ [] ∧ waits.dev.bodyTakes 0 = true) ∧
    (at_ [(qkey 0 0x13, 1), (qkey 0 0x14, 1)]).dev.queuePlacement 0 = 0 := by
  simp only [State.running]
  and_intros <;> decide +kernel

theorem meets_QueuesFlushAndReset :
    let d := (queueState []).dev
    let e := (queueState [(qkey topQueue 0x15, 1)]).dev
    let upset := d.setQueue topQueue { d.queueOf topQueue with w2 := 8 }
    let fixed := d.setQueue topQueue { d.queueOf topQueue with flushAt := some 6 }
    (queueState []).running ∧ (queueState [(qkey topQueue 0x15, 1)]).running ∧ fixed.boot.held = false ∧
    (d.accepts .ssp 0x1701 0x23 1 (firmwareHeld topQueue || false) ∧ d.queueEnabled topQueue = true ∧
      (d.queueOf topQueue).flushAsked = false ∧ (d.queueOf topQueue).disabling = false ∧
      d.qo topQueue 0x11 < d.qo topQueue 0x10 ∧ d.qo topQueue 0x15 = 0) ∧
    (e.accepts .ssp 0x1701 0x23 1 (firmwareHeld topQueue || false) ∧ e.queueEnabled topQueue = true ∧
      (e.queueOf topQueue).flushAsked = false ∧ (e.queueOf topQueue).disabling = false ∧
      e.qo topQueue 0x11 ≤ e.qo topQueue 0x10 ∧ e.qo topQueue 0x15 ≠ 0) ∧
    ((fixed.queueOf topQueue).flushAt = some 6 ∧ (fixed.queueOf topQueue).disabling = false ∧ fixed.qo topQueue 0x11 < 6) ∧
    d.copiesDiffer topQueue = false ∧ e.copiesDiffer topQueue = false ∧ fixed.copiesDiffer topQueue = false ∧
    upset.boot.held = false ∧ upset.copiesDiffer topQueue = true ∧
    upset.accepts .ssp 0x1701 0x21 4 (firmwareHeld topQueue || upset.dequeueForbidden topQueue 4) := by
  simp only [State.running, Device.accepts]
  and_intros <;> decide +kernel

theorem meets_QueueCommitEnables :
    let off (l : List (Nat × Nat)) : State := at_ ((portKey .ssp 0x1700 0x01, topQueue) :: l)
    let ok (s : State) (c : Nat) : Prop := s.running ∧ s.dev.accepts .ssp 0x1701 0x0F 1 (firmwareHeld topQueue || false) ∧
      (s.dev.queueOf topQueue).disabling = false ∧ queueCheck topQueue (stage (queueKeys topQueue) s.dev) = c
    let waits := (queueState [(qkey topQueue 0x01, 5)]).dev
    let waits := waits.setQueue topQueue { waits.queueOf topQueue with disabling := true, flushAsked := true, flushHost := true }
    (waits.boot.held = false ∧ waits.accepts .ssp 0x1701 0x0F 1 (firmwareHeld topQueue || false) ∧
      (waits.queueOf topQueue).disabling = true ∧ queueCheck topQueue (stage (queueKeys topQueue) (cancelDisable topQueue waits)) ≠ 0) ∧
    (off []).dev.selected .ssp = topQueue ∧ topQueue < 262144 ∧
    ok (off [(qkey topQueue 0x01, 5)]) codeOutOfRange ∧
    (ok (off [(qkey topQueue 0x02, 1), (qkey topQueue 0x04, 64)]) 0 ∧
      (off [(qkey topQueue 0x02, 1), (qkey topQueue 0x04, 64)]).dev.queueEnabled topQueue = false ∧
      (off [(qkey topQueue 0x02, 1), (qkey topQueue 0x04, 64)]).dev.qo topQueue 0x04 ≠ 0) ∧
    (off [(qkey topQueue 0x04, 64), (qkey topQueue 0x06, 0)]).dev.qo topQueue 0x06 ≠ 1 ∧
    (ok (off []) 0 ∧ (off []).dev.queueEnabled topQueue = false ∧ (off []).dev.qo topQueue 0x04 = 0) := by
  simp only [State.running, Device.accepts]
  and_intros <;> decide +kernel

theorem meets_TrainingRequests :
    let granted (l : List (Nat × Nat)) : State :=
      with_ (fun d => { d with mem := { d.mem with grants := [⟨3, 0, [(0, 1)], true, false⟩] } }) l
    let on := at_ (channelAt 15 1)
    on.running ∧ (at_ []).running ∧ (granted (channelAt 15 1)).running ∧ (at_ [(okey 0x1600 0x11, 1)]).running ∧
    ((at_ [(okey 0x1600 0x11, 1)]).dev.accepts .ssp 0x1600 0x10 1 false ∧ (at_ [(okey 0x1600 0x11, 1)]).dev.trainingRuns = true) ∧
    ((at_ []).dev.accepts .ssp 0x1600 0x10 1 false ∧ (at_ []).dev.trainingRuns = false ∧ (at_ []).dev.anyPopulated = false) ∧
    (∀ v ∈ [2, 3], (at_ [(okey 0x1600 0x11, 1)]).dev.accepts .ssp 0x1600 0x10 v false ∧ (at_ []).dev.accepts .ssp 0x1600 0x10 v false) ∧
    (at_ []).dev.grantHeld = false ∧
    (on.dev.accepts .ssp 0x1600 0x10 1 false ∧ on.dev.accepts .ssp 0x1600 0x10 2 false ∧ on.dev.accepts .ssp 0x1600 0x10 3 false ∧
      on.dev.trainingRuns = false ∧ on.dev.grantHeld = false ∧ on.dev.anyPopulated = true ∧ on.dev.populated 15 = true) ∧
    ((granted (channelAt 15 1)).dev.accepts .ssp 0x1600 0x10 2 false ∧ (granted (channelAt 15 1)).dev.accepts .ssp 0x1600 0x10 3 false ∧
      (granted (channelAt 15 1)).dev.trainingRuns = false ∧ (granted (channelAt 15 1)).dev.grantHeld = true) := by
  simp only [State.running, Device.accepts]
  and_intros <;> decide +kernel

theorem meets_TrainingStepsAndReads :
    let training (n : Nat) : Device :=
      (with_ (fun d => { d with mem := { d.mem with trainStep := [(15, n)] } }) (channelAt 15 2)).dev
    let alert := ((at_ []).dev.setSub 31 { SubState.init with alert := true })
    let reading := ((at_ []).dev.setSub 31 { SubState.init with retry := [⟨.read true, 0, false⟩, ⟨.read false, 0, false⟩] })
    (at_ []).running ∧ (training 1).boot.held = false ∧
    (∀ n ∈ [1, 10, 11], Cells.read 0 15 (training n).mem.trainStep = n ∧ (training n).chanState 15 = 2 ∧
      bit (training n).mem.trainShort 15 = false) ∧
    1 < (training 1).mem.trainLast ∧ (training 10).mem.trainLast ≤ 10 ∧ (training 11).mem.trainLast ≤ 11 ∧
    (reading.boot.held = false ∧ ((reading.subOf 31).retry.any fun c => c.kind == .read false && !c.skipped) = true) ∧
    alert.boot.held = false ∧ (alert.subOf 31).alert = true ∧ ((at_ []).dev.subOf 31).alert = false := by
  simp only [State.running]
  and_intros <;> decide +kernel

theorem meets_SlotsAndReplay :
    let d := (at_ []).dev
    let alert := d.setSub 31 { SubState.init with alert := true, retry := [⟨.write, 3, false⟩, ⟨.read true, 0, false⟩], skipped := [⟨.command, 0, true⟩], crossed := 1 }
    let idleUse : SlotUse := { ownerReady := false, ready := 0, isWrite := false, opens := none, hot := 0 }
    let ready := (at_ (channelAt 15 3)).dev.setSub 31 { SubState.init with alert := true }
    let capture := Device.setSub { d with mem := { d.mem with grants := [⟨4, 0, [(31, 100)], true, false⟩] } } 31 { SubState.init with slotPos := 1, writes := [⟨0, [], true, 0, true, 0⟩] }
    let granted := Device.setSub { d with mem := { d.mem with grants := [⟨3, 0, [(31, 100)], true, false⟩] } } 31 { SubState.init with slotPos := 1 }
    (at_ []).running ∧ alert.boot.held = false ∧ granted.boot.held = false ∧
    alert.issueStopped 31 = true ∧ (alert.subOf 31).alert = true ∧
    ((alert.subOf 31).retry.filter fun c => c.kind != .read true).length -
      (dropDead 1 ((alert.subOf 31).retry.filter fun c => c.kind != .read true)).length ≠ 0 ∧
    (ready.boot.held = false ∧ ready.issueStopped 31 = true ∧ ready.chanState 15 = 3) ∧
    (granted.ownerCmd 31 3 0 idleUse = none ∧ capture.boot.held = false ∧ (capture.ownerCmd 31 4 0 idleUse).isSome = true ∧
      ((capture.slotTable 31).getD (capture.subOf 31).slotPos (0, 0)).1 = 4) ∧
    d.issueStopped 31 = false ∧ granted.issueStopped 31 = false ∧
    ((granted.slotTable 31).getD (granted.subOf 31).slotPos (0, 0)).1 = 3 ∧ ((granted.slotTable 31).getD 0 (0, 0)).1 < 3 := by
  simp only [State.running]
  and_intros <;> decide +kernel

theorem meets_MemoryPlacesAndGrantsComeIntoForce :
    let p := at_ [(okey 0x1610 0x01, 1)]
    let d := { p.dev with mem := { p.dev.mem with grants := [⟨3, 0, [(0, 1)], false, false⟩, ⟨3, 1, [(1, 1)], true, true⟩] } }
    p.running ∧ d.boot.held = false ∧ p.dev.accepts .ssp 0x1600 0x0F 1 false ∧ memoryCheck (stage memoryKeys p.dev) = 0 ∧
    d.boot.pendingPrimacy = none ∧ (∀ h < 2, d.headState h ≠ headAdmitting) ∧ ∀ c < 32, d.acqState c ≠ acqAdmitting := by
  simp only [State.running, Device.accepts]
  and_intros <;> decide +kernel

/-! ## Premises: raster heads -/

/-- Head 0 in state `s`, with a READY memory of 2^36 bytes behind it. -/
def headAt (s : Nat) (f : Device → Device) (l : List (Nat × Nat)) : State :=
  with_ f (channelAt 0 3 ++ channelAt 1 3 ++ [(okey 0x1640 0x01, 1), (okey 0x1640 0x02, 2 ^ 35), (okey 0x1810 0x21, s)] ++ supervised ++ l)

theorem meets_HeadsStartAndStop :
    let off := headAt 0 id []
    let locked := headAt 0 id [(okey 0x1811 0x21, 3), (akey (okey 0x1811 0x11), 1)]
    off.running ∧ (headAt 3 id []).running ∧ locked.running ∧
    ((headAt 3 id []).dev.accepts .ssp 0x1810 0x20 1 false ∧ (headAt 3 id []).dev.headEnabled 0 = true) ∧
    ((at_ []).dev.accepts .ssp 0x1811 0x20 1 false ∧ (at_ []).dev.headEnabled 1 = false ∧ (at_ []).dev.enableRefusal 1 ≠ 0) ∧
    (off.dev.accepts .ssp 0x1810 0x20 1 false ∧ off.dev.headEnabled 0 = false ∧ off.dev.enableRefusal 0 = 0 ∧ off.dev.headShare 0 ≠ 0) ∧
    ((headAt 3 id []).dev.accepts .ssp 0x1810 0x20 2 false ∧ (headAt 3 id []).dev.headLocked = false) ∧
    (locked.dev.accepts .ssp 0x1811 0x20 2 false ∧ locked.dev.headEnabled 1 = true) := by
  simp only [State.running, Device.accepts]
  and_intros <;> decide +kernel

theorem meets_FrameCommitsAndLatches :
    let off := headAt 0 id []
    let on := headAt 3 (fun d => d.setHead 0 { HeadState.init with nextLatch := 100000001000 }) []
    let bad := headAt 0 id [(okey 0x1830 0x01, 1)]
    let shown := headAt 3 (fun d => { d.setHead 0 { HeadState.init with fetched := d.activeHeight 0, nextLatch := 100000000999 } with pend := [.frame 0] }) []
    off.running ∧ on.running ∧ bad.running ∧ shown.running ∧
    (bad.dev.accepts .ssp 0x1830 0x0F 1 (bad.dev.frameForbidden 0) ∧ bad.dev.frameGroup 0 = [0] ∧
      frameCheck 0 (stage (frameKeys 0) bad.dev) ≠ 0 ∧ bad.dev.groupCheck [0] ≠ 0 ∧ bad.dev.latchReached 0 = false) ∧
    (off.dev.accepts .ssp 0x1830 0x0F 1 (off.dev.frameForbidden 0) ∧ off.dev.frameGroup 0 = [0] ∧
      frameCheck 0 (stage (frameKeys 0) off.dev) = 0 ∧ off.dev.groupCheck [0] = 0 ∧ off.dev.latchReached 0 = false ∧ off.dev.headEnabled 0 = false) ∧
    (on.dev.accepts .ssp 0x1830 0x0F 1 (on.dev.frameForbidden 0) ∧ on.dev.frameGroup 0 = [0] ∧
      frameCheck 0 (stage (frameKeys 0) on.dev) = 0 ∧ on.dev.groupCheck [0] = 0 ∧ on.dev.latchReached 0 = false ∧ on.dev.headEnabled 0 = true) ∧
    (shown.dev.headState 0 = headRunning ∧ shown.dev.reached (shown.dev.headOf 0).nextLatch = true ∧ shown.dev.fetching 0 = false ∧
      shown.dev.pends (.frame 0) = true ∧ frameCheck 0 shown.dev = 0) := by
  simp only [State.running, Device.accepts]
  and_intros <;> decide +kernel

theorem meets_LinesUnderrunsAndRecords :
    let on (x : HeadState) : Device := (headAt 3 (fun d => d.setHead 0 x) [(okey 0x1810 0x23, 0)]).dev
    let lockedPair := (headAt 3 id [(okey 0x1811 0x21, 3), (akey (okey 0x1811 0x11), 1)]).dev
    let blank := { HeadState.init with lastLatch := 10 ^ 11 }
    let first := { HeadState.init with lastLatch := 10 ^ 11 - (on HeadState.init).lineStart 0 0, fetched := 1 }
    (on HeadState.init).boot.held = false ∧ lockedPair.boot.held = false ∧
    ((on HeadState.init).fetching 0 = true ∧ (on HeadState.init).lineMissing 0 = true) ∧
    ((on blank).fetching 0 = true ∧ (on blank).lineMissing 0 = false) ∧
    ((on first).fetching 0 = true ∧ (on first).lineMissing 0 = false ∧ (on first).reached ((on first).lineStart 0 0) = true) ∧
    ((on HeadState.init).headState 0 = headRunning ∧ (on HeadState.init).o 0x1810 0x23 < (on HeadState.init).totalLines 0 ∧
      HeadState.init.matchFrom ≤ (on HeadState.init).lineStart 0 0 / 1000) ∧
    (on HeadState.init).headLocked = false ∧
    (lockedPair.lineMissing 0 = true ∧ lockedPair.headLocked = true ∧
      lockedPair.headState 1 = headRunning) ∧
    ((on { HeadState.init with shown := some ⟨1, 2, true, 3, 4, 5, true⟩ }).headOf 0).shown = some ⟨1, 2, true, 3, 4, 5, true⟩ := by
  and_intros <;> decide +kernel

/-! ## Premises: events -/

theorem meets_LinesTriggersAndFaults :
    let d := (at_ [(okey 0x1500 0x14, 1), (okey 0x1500 0x10, 1)]).dev
    let pulsing := { d with event := { d.event with pulseNext := 2 ^ 31 }, pins := { d.pins with tmu := [(511, Tmu.init)] } }
    let edged := { d with event := { d.event with snapIn := [100000000, 100000001] } }
    d.boot.held = false ∧ (at_ []).running ∧
    (d.accepts .ssp 0x1500 0x07 0xFFFFFFFE false ∧ d.o 0x1500 0x05 = 0xFF ∧ (∀ k < 4, d.trigMode k ≠ 2) ∧ d.event.linePrev = 0 ∧
      ∀ c < 32, d.act (clusterIx c) 0x52 ≠ 2) ∧
    (pulsing.boot.held = false ∧ pulsing.event.strobeNext = false ∧ pulsing.event.pulseNext ≠ 0 ∧
      bit pulsing.linesAsserted 31 = false ∧ bit pulsing.event.linePrev 31 = false ∧ pulsing.o 0x1500 0x05 ≠ 31 ∧
      (∀ k < 4, pulsing.trigMode k ≠ 2) ∧ (∀ c < 32, pulsing.act (clusterIx c) 0x52 ≠ 2) ∧
      pulsing.pins.tmu.map Prod.fst = [511] ∧ TmuInput.takesLine (pulsing.tmuOf 511).startIn 31 true = false ∧
      TmuInput.takesLine (pulsing.tmuOf 511).stopIn 31 true = false) ∧
    ((∀ y ∈ edged.event.snap, y.cycle ≠ edged.cycle) ∧ ∃ c ∈ edged.event.snapIn, c ≤ edged.cycle) ∧
    ((∃ k < 4, d.trigMode k = 1) ∧ ∃ k < 4, d.trigMode k ≠ 1) ∧
    (d.event.snap = [] ∧ d.accepts .ssp 0x1500 0x20 1 false ∧ d.o 0x1500 0x14 = 1 ∧ (at_ []).dev.o 0x1500 0x14 ≠ 1) ∧
    d.accepts .ssp 0x1500 0x03 1 false := by
  simp only [State.running, Device.accepts]
  and_intros <;> decide +kernel

/-- An occurrence of EV002 raised `n` cycles ago, with route flags `flags` and the wakes and pulses of `more`. -/
def occurred (n flags more : Nat) : Occurrence := ⟨2, 100000000 - n, 7, flags * 2 ^ 96 + more⟩

theorem meets_EventDeliveryRoutes :
    let st (l : List Occurrence) (r : List Report) : Device := { (at_ []).dev with event := { EventState.init with raised := l, reports := r } }
    (st [] []).boot.held = false ∧ (st [] []).event.raised = [] ∧
    ((st [occurred 3 0 0] []).cycle < (occurred 3 0 0).cycle + 4) ∧
    ((occurred 4 0 0).cycle + 4 ≤ (st [occurred 4 0 0] []).cycle ∧ fld (occurred 4 0 0).route 0 4 = 0 ∧
      bit (fld (occurred 4 0 0).route 12 1) 0 = false ∧ bit (fld (occurred 4 0 0).route 12 1) 2 = false) ∧
    (fld (occurred 4 7 (2 ^ 32)).route 0 4 = 0 ∧ bit (fld (occurred 4 7 (2 ^ 32)).route 12 1) 0 = true ∧
      bit (fld (occurred 4 7 0).route 12 1) 1 = true ∧ bit (fld (occurred 4 7 0).route 12 1) 2 = true) ∧
    ((st [occurred 4 1 0] []).event.reports.find? fun r => r.src == (occurred 4 1 0).src) = none ∧
    ((st [occurred 4 1 0] [⟨2, 1, 5⟩]).event.reports.find? fun r => r.src == (occurred 4 1 0).src).isSome = true ∧
    (st [occurred 4 7 0] []).event.faultLatch = false ∧ (st [occurred 4 7 0] []).event.snap = [] := by
  and_intros <;> decide +kernel

theorem meets_SnapshotsLatchAndRearm :
    let st (n : Nat) (b : List (Nat × Bank)) (l : List (Nat × Nat)) : Device :=
      { (at_ l).dev with event := { EventState.init with snap := [⟨0, 2, 100000000 - n, false⟩], banks := b } }
    (st 16 [] []).boot.held = false ∧ (at_ []).running ∧ (at_ []).dev.event.snap = [] ∧
    ((st 15 [] []).cycle < 100000000 - 15 + 16 ∧ 100000000 - 16 + 16 ≤ (st 16 [] []).cycle) ∧
    ((st 16 [(168, { Bank.init with full := true })] []).bankOf 168).full = true ∧
    (((st 16 [] [(okey 0x1320 0x02, 3)]).bankOf 0).full = false ∧ bankTile 0 < 8 ∧
      3 ≤ (st 16 [] [(okey 0x1320 0x02, 3)]).powerState (bankTile 0)) ∧
    (((st 16 [] []).bankOf 168).full = false ∧ ¬(bankTile 168 < 8 ∧ 3 ≤ (st 16 [] []).powerState (bankTile 168))) ∧
    (st 16 [] []).accepts .ssp 0x1500 0x21 1 false ∧ (st 16 [] []).accepts .ssp 0x1501 0x02 1 false := by
  simp only [State.running, Device.accepts]
  and_intros <;> decide +kernel

theorem meets_LedgerChecksLocatesResumes :
    let broken (d : Device) (inv unit : Nat) : Prop :=
      d.ledgerSkips inv unit = false ∧ d.isSuspended inv unit = false ∧
      (d.ledgerTerms inv unit).1 - (d.ledgerTerms inv unit).2 ≠ d.baselineOf inv unit
    let d := (at_ [servicePort .ssp]).dev
    let counted : Device := { (at_ [(akey (qkey 0 0x04), 64), (qkey 0 0x14, 1), (qkey 0 0x19, 1), (okey 0x1780 0x04, 1 + 0xFFFFFFFF * 2 ^ 32)]).dev with
      ledger := { LedgerState.init with locate := [(0, 1)] } }
    let off := setBaseline 8 0 1 (setBaseline 1 0 1 d)
    d.boot.held = false ∧ off.boot.held = false ∧
    (∀ x ∈ d.tileScopes 7, ¬ broken d x.1 x.2) ∧ ((1, 0) ∈ off.tileScopes 0 ∧ broken off 1 0) ∧ broken off 8 0 ∧ ¬ broken d 8 0 ∧
    (Cells.read 0 0 counted.ledger.locate ≠ 0 ∧ bit (Cells.read 0 0 counted.ledger.locate) 0 = true ∧
      counted.brokenQueue 0 1 = some 0 ∧ fld (counted.o 0x1780 0x04) 0 1 = 1 ∧ fld (counted.o 0x1780 0x04) 1 1 = 0 ∧
      fld (counted.o 0x1780 0x04) 4 4 = 0xFFFFFFFF) ∧
    Cells.read 0 7 d.ledger.locate = 0 ∧ Cells.read 0 7 { d.ledger with locate := [(7, 3)] }.locate ≠ 0 ∧
    (d.accepts .ssp 0x1780 0x07 1 false ∧ d.accepts .ssp 0x1780 0x02 1 false ∧ d.mem.everReady = false) ∧
    ({ d with mem := { d.mem with everReady := true } }.accepts .ssp 0x1780 0x02 1 false) := by
  simp only [Device.accepts]
  and_intros <;> decide +kernel

/-! ## Premises: channels and TMUs -/

theorem meets_LevelStrobesLoadTheDacs :
    let st := at_ [(okey (quadIx 126) 0x15, 1), (okey (quadIx 0) 0x15, 1), (okey 0x1410 0x01, 2), (okey 0x1327 0x02, 3)]
    let d := (with_ (fun e => { stage (levelKeys 127) e with pend := [.level 127] }) []).dev
    st.running ∧ d.boot.held = false ∧
    (d.pends (.level 127) = true ∧ levelCheck 127 d = 0 ∧ (d.dacOf 127).strobed ≠ d.cycle + 1) ∧
    st.dev.accepts .ssp 0x1500 0x06 1 false ∧ st.dev.o (quadIx 1) 0x15 = 0 ∧ st.dev.calibrating 0 = true ∧
    (st.dev.o (quadIx 126) 0x15 ≠ 0 ∧ st.dev.calibrating 7 = false ∧ st.dev.pends (.level 126) = false ∧
      st.dev.powerState 7 ≤ 3 ∧ (st.dev.dacOf 126).strobed ≠ st.dev.cycle + 1) := by
  simp only [State.running, Device.accepts]
  and_intros <;> decide +kernel

theorem meets_ChannelMonitorsTick :
    let on (m : Monitor) : Device := (with_ (fun d => d.setChanMon 511 m) [(akey (okey (chanIx 511) 0x09), 1)]).dev
    let checked := { Monitor.init with check := 2, ticks := 3 }
    let wide := (with_ (fun d => d.setChanMon 511 checked) [(akey (okey (chanIx 511) 0x09), 1), (akey (okey (chanIx 511) 0x0B), 1000)]).dev
    let swapped (n : Nat) : Monitor := { Monitor.init with check := 1, ticks := n }
    (on Monitor.init).boot.held = false ∧ (at_ []).running ∧ (at_ []).dev.monitorRuns 511 = false ∧
    ((on checked).monitorRuns 511 = true ∧ ((on checked).chanMon 511).check ≠ 0 ∧ ((on checked).chanMon 511).ticks < 4) ∧
    ((on Monitor.init).monitorRuns 511 = true ∧ ((on Monitor.init).chanMon 511).check = 0) ∧
    (∀ n ∈ [0, 3], (on (swapped n)).monitorRuns 511 = true ∧ ((on (swapped n)).chanMon 511).check = 1 ∧
      ((on (swapped n)).chanMon 511).ticks < 4) ∧
    (wide.boot.held = false ∧ wide.monitorRuns 511 = true ∧ (wide.chanMon 511).check = 2 ∧
      wide.acti (chanIx 511) 0x0A + wide.acti (chanIx 511) 0x0C < wide.acti (chanIx 511) 0x0B - wide.acti (chanIx 511) 0x0D) ∧
    ((at_ []).dev.accepts .ssp (chanIx 511) 0x16 2 false ∧ (at_ []).dev.act (chanIx 511) 0x09 ≠ 1) ∧
    ((on checked).accepts .ssp (chanIx 511) 0x16 1 false ∧ (on checked).act (chanIx 511) 0x09 = 1) ∧
    (on Monitor.init).accepts .ssp (chanIx 511) 0x16 2 false ∧
    4 ≤ ((on { checked with ticks := 4 }).chanMon 511).ticks := by
  simp only [State.running, Device.accepts]
  and_intros <;> decide +kernel

theorem meets_PpmuSamplesAndClamps :
    let mode (k : Nat) : Device := (at_ [(akey (okey (chanIx 511) 0x02), k)]).dev
    (at_ []).running ∧ (mode 1).boot.held = false ∧ (at_ []).dev.ppmuRuns 511 = false ∧
    ((mode 1).ppmuRuns 511 = true ∧ (mode 1).ppmuSkip 511 = 0 ∧ (mode 1).ppmuMode 511 = 1) ∧
    ((mode 2).ppmuRuns 511 = true ∧ (mode 2).ppmuSkip 511 = 0 ∧ (mode 2).ppmuMode 511 ≠ 1) ∧
    ((mode 1).setPpmuSkip 511 4).ppmuSkip 511 ≠ 0 ∧
    (((mode 1).setChanMon 511 { Monitor.init with check := 1 }).chanMon 511).check ≠ 0 ∧ ((mode 1).chanMon 511).check = 0 ∧
    (clampOf ((mode 1).ppmuMode 511) 2 = true ∧ bit ((mode 1).o (chanIx 511) 0x13) 2 = false) ∧
    (clampOf ((mode 2).ppmuMode 511) 0 = true ∧ clampOf ((mode 2).ppmuMode 511) 1 = true) ∧
    clampOf ((mode 1).ppmuMode 511) 0 = false := by
  simp only [State.running]
  and_intros <;> decide +kernel

/-- TMU 511 with working state `x` in state `s`. -/
def tmuAt (s : Nat) (x : Tmu) : State := with_ (fun d => d.setTmu 511 x) [(okey (chanIx 511) 0x2B, s)]

theorem meets_TmuTimeoutAndOverrange :
    let open_ (t c : Nat) : Device := (tmuAt 2 { Tmu.init with mode := 1, start := some (100000000 - c, 5), timeout := t }).dev
    let after (k : Nat) : Device := (tmuAt 3 { Tmu.init with converting := [⟨k, some (5, 5), none, none, 0, false⟩] }).dev
    (open_ 9 9).boot.held = false ∧ (open_ 9 9).tmuState 511 = tmuStarted ∧ ((open_ 9 9).tmuOf 511).mode ≤ 1 ∧
    ((open_ 9 9).tmuOf 511).start = some (100000000 - 9, 5) ∧ 100000000 - 9 + 9 ≤ (open_ 9 9).cycle ∧ (open_ 9 8).cycle < 100000000 - 8 + 9 ∧
    ((open_ 0 8).tmuOf 511).timeout = 0 ∧ (open_ 0 8).cycle < 100000000 - 8 + 4294967295 ∧
    0 + 4294967295 ≤ { open_ 0 100000000 with cycle := 4294967295 }.cycle ∧
    ({ open_ 0 100000000 with cycle := 4294967295 }.tmuOf 511).start = some (0, 5) ∧
    (after 1).boot.held = false ∧ ((after 1).tmuOf 511).converting ≠ [] ∧ ((after 2).tmuOf 511).mode ≤ 2 := by
  and_intros <;> decide +kernel

theorem meets_TmuArmsAndDisarms :
    let ready := at_ [(okey (chanIx 511) 0x24, 1), (okey (chanIx 511) 0x29, 1)]
    let waits := tmuAt 1 { Tmu.init with left := 1, ready := 100000000 }
    ready.running ∧ (tmuAt 6 Tmu.init).running ∧ (tmuAt 1 Tmu.init).running ∧
    (ready.dev.accepts .ssp (chanIx 511) 0x2A 1 false ∧ ready.dev.tmuBusy 511 = false ∧ ready.dev.tmuRefusal 511 = 0 ∧
      ready.dev.calibrating 7 = false) ∧
    ((at_ [(okey (chanIx 511) 0x24, 0)]).dev.tmuBusy 511 = false ∧ (at_ [(okey (chanIx 511) 0x24, 0)]).dev.tmuRefusal 511 ≠ 0) ∧
    (at_ [(okey (chanIx 511) 0x24, 1), (okey 0x1417 0x01, 2)]).dev.calibrating 7 = true ∧
    ((tmuAt 6 Tmu.init).dev.accepts .ssp (chanIx 511) 0x2A 2 false ∧ (tmuAt 6 Tmu.init).dev.tmuState 511 = tmuHeld) ∧
    (waits.dev.tmuBusy 511 = true ∧ (waits.dev.tmuOf 511).start = none ∧ 0 < (waits.dev.tmuOf 511).left ∧
      (waits.dev.tmuOf 511).ready ≤ waits.dev.cycle ∧ waits.running) ∧
    ((at_ []).dev.tmuState 511 ≠ tmuHeld ∧ (at_ []).dev.tmuBusy 511 = false ∧ (at_ []).dev.accepts .ssp (chanIx 511) 0x2A 2 false) ∧
    (tmuAt 1 Tmu.init).dev.cycle < ((tmuAt 1 { Tmu.init with ready := 100000001 }).dev.tmuOf 511).ready := by
  simp only [State.running, Device.accepts]
  and_intros <;> decide +kernel

theorem meets_TmuEdgesAndResults :
    let began := { Tmu.init with start := some (99999000, 5), startAt := 199998000000, gate := 1000, stopCount := 2 }
    let edge : PinEdge := { chan := 511, before := -(10 ^ 12), after := 10 ^ 12, fine := 1999 }
    let result (m : TmuDone) (k : Nat) : Tmu := { Tmu.init with mode := k, converting := [m] }
    let done : TmuDone := ⟨0, some (99999000, 5), some (99999500, 1), some (99999600, 2), 2, false⟩
    let idle := tmuAt 1 { Tmu.init with isReady := true }
    let idle0 : Tmu := { Tmu.init with isReady := true, startIn := ⟨2, 0, 1, 31⟩ }
    idle.running ∧
    (idle.dev.qualifies 511 (idle.dev.tmuOf 511).startIn edge = true ∧ (idle.dev.tmuOf 511).isReady = true ∧
      (idle.dev.tmuOf 511).start = none) ∧
    idle.dev.qualifies 511 (idle.dev.tmuOf 511).startIn { edge with after := -(10 ^ 12) } = false ∧
    ((tmuAt 2 began).dev.qualifies 511 began.stopIn edge = true ∧ began.startAt + 120 ≤ 2000 * (tmuAt 2 began).dev.cycle + 1999 ∧
      ¬(began.mode ≠ 2 ∧ began.stopCount ≤ began.edges + 1)) ∧
    ((tmuAt 2 { began with edges := 1 }).dev.qualifies 511 began.stopIn edge = true ∧
      began.stopCount ≤ ({ began with edges := 1 } : Tmu).edges + 1) ∧
    (began.mode ≠ 2 ∧ 2000 * 100000000 + 1999 = ({ began with startAt := 200000001999 } : Tmu).startAt ∧ TmuInput.same began.startIn began.stopIn = true) ∧
    (awaitsFall idle0 = true ∧ (tmuAt 1 idle0).dev.qualifies 511 idle0.stopIn edge = true ∧ awaitsFall Tmu.init = false ∧
      Tmu.init.start = none) ∧
    (((tmuAt 2 { began with mode := 2 }).dev.tmuOf 511).mode = 2 ∧ 99999000 + 1000 ≤ (tmuAt 2 began).dev.cycle) ∧
    (tmuAt 2 { began with mode := 2, gate := 1001 }).dev.cycle < 99999000 + 1001 ∧
    ((tmuAt 3 (result done 0)).dev.tmuOf 511).converting = [done] ∧
    (((tmuAt 3 (result done 2)).dev.tmuOf 511).mode = 2 ∧ done.fast = false ∧ done.first = some (99999500, 1)) := by
  simp only [State.running]
  and_intros <;> decide +kernel

/-! ## Premises: sites and flows -/

theorem meets_SitesCommitAndStart :
    let mask := (2 : Nat) ^ 127
    let waits (v : Nat) : Device := (with_ (fun d => { d with pend := [.timing 3, .site 127, .site 2] })
      ([(pkey (okey (siteIx 127) 0x01), v), (pkey (okey (siteIx 127) 0x09), 128), (pkey (okey (siteIx 127) 0x0A), 64), (pkey (okey (siteIx 127) 0x0B), 128), (pkey (okey (siteIx 127) 0x0C), 65535), (pkey (okey (siteIx 127) 0x1B), 65535), (pkey (okey (siteIx 127) 0x1D), 0xFFFFFFFF), (pkey (okey (siteIx 127) 0x23), 65535)] ++ supervised)).dev
    let idle := siteAt 1 Flow.init []
    let soon (due : Nat) : Device := { idle.dev with ringNs := 5, sites := { idle.dev.sites with starts := [(127, due)] } }
    let line (st : Nat) : Device := { (siteAt st Flow.init [(okey (siteIx 127) 0x07, 31)]).dev with event := { EventState.init with linePulse := 2 ^ 31 } }
    let log := { Flow.init with logEntry := [1], logSince := 99990000 }
    let logged := { (siteAt 2 log (channelAt 0 3 ++ channelAt 1 3 ++ [(okey 0x1640 0x01, 1), (akey (okey (siteIx 127) 0x1D), 5), (qkey 5 0x13, 1)])).dev with mem := { MemState.init with queue := [(5, { QueueState.init with reserved := 1 })] } }
    (waits 1).boot.held = false ∧ idle.running ∧ (at_ []).dev.pend = [] ∧
    ((waits 1).pend = [.timing 3] ++ .site 127 :: [.site 2] ∧ (∀ b ∈ ([.timing 3] : List Block), ∀ k < 128, b ≠ Block.site k) ∧
      siteCheck 127 (waits 1) = 0) ∧
    (siteCheck 2 (waits 1) ≠ 0 ∧ (waits 1).pend.drop 2 = [.site 2]) ∧
    (idle.dev.accepts .ssp 0x1000 0x20 (mask + 2 ^ 128 * 7) false ∧ idle.dev.o (siteIx 127) 0x07 = 32 ∧ idle.dev.ringNs < 7) ∧
    (idle.dev.accepts .ssp 0x1000 0x20 mask false ∧ Cells.read 0 127 idle.dev.sites.starts = 0) ∧
    ((line 1).accepts .ssp 0x1000 0x20 mask false ∧ (line 1).o (siteIx 127) 0x07 ≠ 32) ∧
    (idle.dev.siteState 127 = siteIdle ∧ idle.dev.act (siteIx 127) 0x19 ≠ 0 ∧ idle.dev.stopping = false ∧ idle.dev.failed = false ∧
      127 ∉ idle.dev.sites.woken ∧ idle.dev.cfeRuns 127 = true ∧ idle.dev.resultQueue 127 < 262144) ∧
    (Cells.read 0 127 (soon 5).sites.starts = 5 ∧ 5 ≤ (soon 5).ringNs ∧ (soon 6).ringNs < 6 ∧ (soon 5).siteState 127 = siteIdle) ∧
    (siteAt 2 Flow.init []).dev.siteState 127 ≠ siteIdle ∧
    (idle.dev.linesAsserted.testBit 31 = false ∧ (line 1).linesAsserted.testBit 31 = true ∧
      (line 1).event.linePrev.testBit 31 = false ∧ (line 1).siteMask 127 ≠ 0 ∧ (line 1).o (siteIx 127) 0x07 = 31 ∧
      (∀ j < 127, (line 1).siteMask j = 0) ∧ (line 2).siteState 127 ≠ siteIdle ∧ (line 1).siteState 127 = siteIdle) ∧
    idle.dev.accepts .ssp (siteIx 127) 0x3B 1 false ∧
    ((logged.flowOf 127).logEntry ≠ [] ∧ (logged.flowOf 127).logSince + 10000 ≤ logged.cycle ∧ logged.failQueue 127 = 5 ∧
      (logged.queueOf 5).reserved ≠ 0 ∧ logged.outstanding 5 ≠ 0 ∧ logged.copiesDiffer 5 = false ∧
      (logged.queueOf 5).waiting = [] ∧ logged.bodyTakes 5 = true) ∧
    (idle.dev.flowOf 127).logEntry = [] := by
  simp only [State.running, Device.accepts]
  and_intros <;> decide +kernel

theorem meets_StepsRun :
    let at0 (r : Nat) (l : List (Nat × Nat)) : Device := (siteAt 3 (stepOf .boundary r) l).dev
    let run (f : Flow) (l : List (Nat × Nat)) : Device := (siteAt 2 f l).dev
    (at0 1 []).boot.held = false ∧
    (∀ op ∈ [1, 2, 3, 4, 5, 6, 7, 8, 15], ((at0 op []).flowOf 127).phase = .boundary ∧ (at0 op []).siteHeld 127 = false ∧
      recOpcode ((at0 op []).flowOf 127).record = op) ∧
    (∀ op ∈ [1, 2, 3, 4, 5, 6, 7, 8, 15], (at0 op [(okey 0x1410 0x01, 2)]).siteHeld 127 = true) ∧
    (at0 2 []).measMismatch 127 ((at0 2 []).flowOf 127).record = true ∧
    (∀ m ∈ [(0, 2), (1, 1)], (at0 (2 + m.1 * 2 ^ 96) [(akey (okey (chanIx 0) 0x02), m.2)]).measMismatch 127
      ((at0 (2 + m.1 * 2 ^ 96) []).flowOf 127).record = false) ∧
    ((at0 15 []).resultQueue 127 < 262144 ∧ (at0 15 []).recordRoom 127 = true ∧
      (at0 15 [(akey (okey (siteIx 127) 0x1C), 9)]).recordRoom 127 = false) ∧
    ((run (stepOf .running 4) [(okey (dpsIx 0) 0x23, 3)]).flowOf 127).phase = .running ∧
    recOpcode (((run (stepOf .running 4) []).flowOf 127).record) = opSettle ∧
    ((run (stepOf .running 4) []).flowOf 127).beginCycle + fld 4 16 4 ≤ (run (stepOf .running 4) []).cycle ∧
    (run (stepOf .running 4) [(okey (dpsIx 0) 0x23, 3)]).o (dpsIx (fld 4 12 1)) 0x23 = 3 ∧
    (run { stepOf .running (4 + 2 ^ 128) with beginCycle := 100000000 } []).cycle < 100000000 + fld (4 + 2 ^ 128) 16 4 ∧
    (recOpcode (2 + 2 ^ 128) = opParamMeasure ∧ 0 < measCount (2 + 2 ^ 128) ∧ measCount (2 + 2 ^ 128) ≤ 1 ∧
      ((run { stepOf .running (2 + 2 ^ 128) with samples := 1 } []).flowOf 127).samples = 1) := by
  and_intros <;> decide +kernel

/-- A descriptor of one block for quad 0, the lead, with a demand of one slot on subchannel 0 (R118). -/
def oneBlock : Nat := 0x4B535256 + 2 ^ 32 + 2 ^ 64 + 2 ^ 160 + 2 ^ 192 + 2 ^ 752

/-- A tile 0 with READY memory that holds the descriptor `x` at offset 0. -/
def described (s : Nat) (f : Flow) (x : Nat) (l : List (Nat × Nat)) : Device :=
  ((siteAt s f (channelAt 0 3 ++ channelAt 1 3 ++ [(okey 0x1640 0x01, 1), (okey 0x1640 0x02, 2 ^ 35)] ++ l)).dev).sdramWrite 0 (leBytes 96 x)

theorem meets_StepEndsAndAdmission :
    let bin := { stepOf .complete 6 with result := 0 }
    let fetched := ((siteAt 2 bin (channelAt 0 3 ++ channelAt 1 3 ++ [(okey 0x1640 0x01, 1)]))).dev.sramWrite 0 (leBytes 32 (15 + 0xFFFFFFFFFFFF * 2 ^ 16))
    let cut := (siteAt 2 { stepOf .complete 15 with result := 17 } [(akey (okey (siteIx 127) 0x1B), 0xFFFF)]).dev
    let asks := described 3 (stepOf .boundary 1) oneBlock supervised
    let waits := { stepOf .admission (1 + 0xFFFF * 2 ^ 48) with waitSince := some 99999000 }
    let limit (n : Nat) : Device := (siteAt 3 waits [(akey (okey (siteIx 127) 0x22), n)]).dev
    let admitted := described 2 (stepOf .admitted 1) oneBlock ((List.range 64).map fun k => (akey (okey (quadIx 0) (0x20 + k)), 10000))
    let timed (f : Flow) (n : Nat) : Device := (siteAt 2 { f with beginCycle := 99999000 } [(akey (okey (siteIx 127) 0x20), n)]).dev
    let credit := (siteAt 3 { bin with phase := .credit } []).dev.sramWrite 0 (leBytes 32 (15 + 0xFFFFFFFFFFFF * 2 ^ 16))
    let busy (v : Nat) : Device := described 2 (stepOf .admitted 1) oneBlock [(okey 0x1410 0x01, v)]
    let retry (c : Nat) : Device := { limit 1 with mem := { (limit 1).mem with freedPeriod := [(0, c)] } }
    (credit.siteClocked 127 = true ∧ credit.recordRoom 127 = true ∧ (credit.flowOf 127).phase = .credit ∧
      credit.copiesDiffer (credit.resultQueue 127) = false ∧
      credit.fetchError 127 0 (ofLE (credit.sramRead (credit.recordKey 127 0) 32)) = none) ∧
    ((retry 1).siteHeld 127 = false ∧ (retry 1).siteClocked 127 = true ∧ (retry 1).retryDue 127 = true ∧
      (limit 1).retryDue 127 = false) ∧
    ((siteAt 3 waits [(okey 0x1410 0x01, 2)]).dev.siteHeld 127 = true ∧ (siteAt 2 bin [(okey 0x1300 0x12, 2)]).dev.siteClocked 127 = false) ∧
    fetched.boot.held = false ∧ asks.boot.held = false ∧
    ((siteAt 2 bin []).dev.siteClocked 127 = true ∧ ((siteAt 2 bin []).dev.flowOf 127).phase = .complete ∧
      (siteAt 2 bin [(qkey 0 0x13, 0)]).dev.recordRoom 127 = true ∧
      (siteAt 2 bin [(akey (okey (siteIx 127) 0x1C), 9)]).dev.recordRoom 127 = false) ∧
    (fetched.siteClocked 127 = true ∧ fetched.recordRoom 127 = true ∧ fetched.resultQueue 127 < 262144 ∧
      fetched.queuePlacement (fetched.resultQueue 127) = 0 ∧
      fetched.copiesDiffer (fetched.resultQueue 127) = false ∧ recOpcode (fetched.flowOf 127).record ≠ opEnd ∧
      (fetched.queueOf (fetched.resultQueue 127)).waiting = [] ∧ fetched.bodyTakes (fetched.resultQueue 127) = true ∧ (fetched.flowOf 127).ending = none ∧ fetched.act (siteIx 127) 0x21 = 0 ∧
      successor 6 0 = 0 ∧ fetched.fetchError 127 0 (ofLE (fetched.sramRead (fetched.recordKey 127 0) 32)) = none) ∧
    ((cut.flowOf 127).phase = .complete ∧ cut.siteClocked 127 = true ∧ recOpcode (cut.flowOf 127).record = opEnd ∧ (cut.flowOf 127).result = 17 ∧
      (cut.flowOf 127).ending = none ∧ cut.act (siteIx 127) 0x1B = 0xFFFF ∧ cut.recordRoom 127 = true ∧ cut.resultQueue 127 < 262144) ∧
    ((asks.flowOf 127).phase = .boundary ∧ recOpcode (asks.flowOf 127).record = 1 ∧ asks.siteHeld 127 = false ∧
      asks.descResult 127 0 = 0 ∧ asks.demandFits (asks.streamDemand 127 0 ++ asks.logDemand 127) = true) ∧
    ((siteAt 3 (stepOf .boundary 1) []).dev.descResult 127 0 ≠ 0) ∧
    ((described 3 (stepOf .boundary 1) oneBlock []).descResult 127 0 = 0 ∧
      (described 3 (stepOf .boundary 1) oneBlock []).demandFits (asks.streamDemand 127 0 ++ asks.logDemand 127) = false ∧
      recNotAdmitted (1 + 0xFFFF * 2 ^ 48) = 0xFFFF ∧ recNotAdmitted 1 ≠ 0xFFFF) ∧
    (((limit 1).flowOf 127).phase = .admission ∧ ((limit 1).flowOf 127).waitSince = some 99999000 ∧
      99999000 + 1000 * 1 ≤ (limit 1).cycle ∧ (limit 2).cycle < 99999000 + 1000 * 2) ∧
    (admitted.siteClocked 127 = true ∧ admitted.siteHeld 127 = false) ∧
    ((busy 2).siteClocked 127 = true ∧ (busy 2).siteHeld 127 = true) ∧
    ((admitted.flowOf 127).phase = .admitted ∧ admitted.failQueue 127 = noQueue ∧ admitted.periodsDiffer 127 = false) ∧
    ((limit 1).accepts .ssp (siteIx 127) 0x31 1 false ∧ (limit 1).siteBusy 127 = true ∧
      (siteAt 1 Flow.init []).dev.siteBusy 127 = false) ∧
    (((timed (stepOf .running 4) 1).flowOf 127).phase = .running ∧ 99999000 + 1000 * 1 ≤ (timed (stepOf .running 4) 1).cycle ∧
      (timed (stepOf .running 4) 2).cycle < 99999000 + 1000 * 2) := by
  simp only [Device.accepts]
  and_intros <;> decide +kernel

theorem meets_StepEndsAndAdmission_periods :
    let d := (with_ (fun d => d.setFlow 127 (stepOf .admitted 1))
      [(okey 0x1310 0x0B, 0), (okey (siteIx 127) 0x03, 0), (akey (okey (siteIx 127) 0x01), 3), (akey (okey (quadIx 1) 0x20), 20000)]).dev
    d.periodsDiffer 127 = true ∧ d.siteClocked 127 = true ∧ d.siteHeld 127 = false := by
  and_intros <;> decide +kernel

/-! ## Premises: DPS and acquisition -/

/-- DPS 63 on, with working state `x`. -/
def dpsAt (x : DpsChan) (l : List (Nat × Nat)) : State := with_ (fun d => d.setDps 63 x) ((akey (okey (dpsIx 63) 0x01), 1) :: l)

/-- DPS 63 a member of the gang of DPS 56. -/
def member : List (Nat × Nat) := [(akey (okey (tileIx 7) 0x30), 0)]

theorem meets_DpsSamplesClampsAndAlarms :
    let on := (dpsAt DpsChan.init []).dev
    on.boot.held = false ∧ on.isMember 63 = false ∧ (dpsAt DpsChan.init member).dev.isMember 63 = true ∧
    (on.dpsOf 63).skip = 0 ∧ ((dpsAt { DpsChan.init with skip := 1 } []).dev.dpsOf 63).skip ≠ 0 ∧
    (on.pathSwitched 63 = false ∧
      (with_ (fun e => e.setCal 7 { Cal.init with kinds := 2, path := [(7, 99000000)] }) [(okey 0x1417 0x01, 2)]).dev.pathSwitched 63 = true ∧
      (with_ (fun e => e.setCal 7 { Cal.init with kinds := 2, path := [(7, 80000000)] }) [(okey 0x1417 0x01, 2)]).dev.pathSwitched 63 = false) ∧
    (on.dpsForces 63 = true ∧ (on.dpsOf 63).clamped = false ∧ on.o (dpsIx 63) 0x2E = 0) ∧
    (∀ a ∈ [false, true], ((dpsAt { DpsChan.init with alarmed := a } []).dev.dpsOf 63).alarmed = a) ∧
    (∀ a ∈ [0, 2], (dpsAt DpsChan.init [(akey (okey (dpsIx 63) 0x0A), a)]).dev.act (dpsIx 63) 0x0A = a) ∧
    (at_ []).dev.dpsForces 63 = false ∧
    on.accepts .ssp (dpsIx 63) 0x2C 1 false := by
  simp only [Device.accepts]
  and_intros <;> decide +kernel

theorem meets_DpsMonitorsTickAndCheck :
    let v := (dpsAt DpsChan.init [(akey (okey (dpsIx 63) (placeOf false).first), 1)]).dev
    let i := (dpsAt DpsChan.init [(akey (okey (dpsIx 63) (placeOf true).first), 1)]).dev
    let full := { Monitor.init with check := 1, ticks := 4 }
    let tie := (dpsAt { DpsChan.init with connected := true } [(akey (okey (dpsIx 63) (placeOf false).first), 1), (akey (okey (dpsIx 63) ((placeOf false).first + 2)), 9),
      (akey (okey (dpsIx 63) ((placeOf false).first + 3)), 4), (akey (okey (dpsIx 63) ((placeOf false).first + 4)), 4)]).dev.setMonV 63 { full with check := 2, ticks := 3 }
    (tie.dpsMonEnabled 63 false = true ∧ (tie.dpsMon 63 false).check = 2 ∧ (tie.dpsMon 63 false).ticks < 4 ∧
      0 ≤ tie.acti (dpsIx 63) ((placeOf false).first + 3) ∧ 0 ≤ tie.acti (dpsIx 63) ((placeOf false).first + 4) ∧
      tie.acti (dpsIx 63) ((placeOf false).first + 1) + tie.acti (dpsIx 63) ((placeOf false).first + 3) <
        tie.acti (dpsIx 63) ((placeOf false).first + 2) - tie.acti (dpsIx 63) ((placeOf false).first + 4)) ∧
    v.boot.held = false ∧ i.boot.held = false ∧ (at_ []).running ∧ (∀ cur, (at_ []).dev.dpsMonEnabled 63 cur = false) ∧
    (v.dpsMonEnabled 63 false = true ∧ (v.dpsMon 63 false).check = 0) ∧ (i.dpsMonEnabled 63 true = true ∧ (i.dpsMon 63 true).check = 0) ∧
    (v.accepts .ssp (dpsIx 63) 0x28 2 false ∧ false = decide (3 ≤ 2)) ∧ (i.accepts .ssp (dpsIx 63) 0x28 3 false ∧ true = decide (3 ≤ 3)) ∧
    (((i.setMonI 63 full).dpsMon 63 true).check ≠ 0 ∧ 4 ≤ ((i.setMonI 63 full).dpsMon 63 true).ticks) ∧
    (((v.setMonV 63 full).dpsMon 63 false).check ≠ 0 ∧ 4 ≤ ((v.setMonV 63 full).dpsMon 63 false).ticks) := by
  simp only [State.running, Device.accepts]
  and_intros <;> decide +kernel

theorem meets_DpsTickAndShutdown :
    let d := (at_ []).dev
    let ramps (uv : Int) : Device := (dpsAt { DpsChan.init with ramping := true, ramp := uv } [(akey (okey (dpsIx 63) 0x02), 100), (akey (okey (dpsIx 63) 0x06), 400)]).dev
    let ranks (r : Nat) (l : List (Nat × Nat)) : Device :=
      let e := (dpsAt DpsChan.init l).dev
      { e with dps := { e.dps with rank := some (r, 95000000) } }
    d.boot.held = false ∧ d.pend = [] ∧ d.dps.rank = none ∧ (∀ k < 64, d.pends (.dps k) = false) ∧ (∀ g < 8, d.pends (.gang g) = false) ∧
    ((dpsAt DpsChan.init []).dev.dpsOf 63).clearAsked = false ∧
    ((dpsAt { DpsChan.init with clearAsked := true } []).dev.dpsOf 63).clearAsked = true ∧ (ramps 0).dpsForces 63 = true ∧
    (((ramps 600).dpsOf 63).ramping = true ∧ ((ramps 600).forceUv 63 - ((ramps 600).dpsOf 63).ramp).natAbs ≤ (ramps 600).act (dpsIx 63) 0x06) ∧
    ((ramps 0).act (dpsIx 63) 0x06 < ((ramps 0).forceUv 63 - ((ramps 0).dpsOf 63).ramp).natAbs) ∧
    ((ranks 4 []).dps.rank = some (4, 95000000) ∧ (ranks 4 []).rankEnded 4 95000000 = true) ∧
    (∀ q < 4, ∀ k < 64, (ranks 4 [(akey (okey (dpsIx 63) 0x09), 7)]).dpsForces k = true →
      (ranks 4 [(akey (okey (dpsIx 63) 0x09), 7)]).act (dpsIx k) 0x09 ≠ q) ∧
    ((ranks 4 [(akey (okey (dpsIx 63) 0x09), 3)]).dpsForces 63 = true ∧
      (ranks 4 [(akey (okey (dpsIx 63) 0x09), 3)]).act (dpsIx 63) 0x09 = 3) ∧
    (ranks 4 [(okey (dpsIx 63) 0x20, 50001), (akey (okey (dpsIx 63) 0x09), 4)]).rankEnded 4 95000001 = false := by
  and_intros <;> decide +kernel

/-- Unit 31 in state `s`, its working state `x`, a TMU input, a result queue of class AQ in SDRAM with two credits. -/
def acqAt (s : Nat) (x : Acq) (l : List (Nat × Nat)) : Device :=
  (with_ (fun d => d.setAcq 31 x) (channelAt 14 3 ++ channelAt 15 3 ++
    [(okey 0x1647 0x01, 1), (okey 0x1647 0x02, 2 ^ 35), (okey (clusterIx 31) 0x60, s), (akey (okey (clusterIx 31) 0x41), 6), (akey (okey (clusterIx 31) 0x5A), 7 * 32768), (akey (qkey (7 * 32768) 0x01), 2), (qkey (7 * 32768) 0x13, 300), (qkey (7 * 32768) 0x14, 1)] ++ supervised ++ l)).dev

theorem meets_AcquisitionArmsAndTriggers :
    let auto (n : Nat) : Device := acqAt 3 { Acq.init with readySince := 99999000 } [(akey (okey (clusterIx 31) 0x40), 2), (akey (okey (clusterIx 31) 0x58), n)]
    (acqAt 0 Acq.init []).boot.held = false ∧ (auto 1).boot.held = false ∧
    ((acqAt 0 Acq.init []).accepts .ssp (clusterIx 31) 0x61 1 false ∧ (acqAt 0 Acq.init []).acqArmed 31 = false ∧
      (acqAt 0 Acq.init []).acqRefusal 31 = 0) ∧
    (acqAt 1 Acq.init []).acqArmed 31 = true ∧ (at_ []).dev.acqRefusal 31 ≠ 0 ∧
    ((acqAt 4 Acq.init []).accepts .ssp (clusterIx 31) 0x61 2 false ∧ (acqAt 4 Acq.init []).acqState 31 = acqCapturing) ∧
    ((acqAt 3 Acq.init []).acqArmed 31 = true ∧ (acqAt 3 Acq.init []).acqState 31 = acqReady) ∧
    ((acqAt 2 Acq.init []).acqState 31 = acqCreditWait ∧
      (acqAt 2 Acq.init []).canReserve ((acqAt 2 Acq.init []).acqQueue 31) ((acqAt 2 Acq.init []).acqEntries 31) = true ∧
      (acqAt 2 Acq.init []).act (clusterIx 31) 0x40 ≠ 2) ∧
    (at_ []).dev.canReserve ((at_ []).dev.acqQueue 31) ((at_ []).dev.acqEntries 31) = false ∧
    ((acqAt 3 Acq.init []).accepts .ssp (clusterIx 31) 0x62 1 false ∧ (acqAt 3 Acq.init []).act (clusterIx 31) 0x52 = 0 ∧
      (acqAt 3 Acq.init []).act (clusterIx 31) 0x53 = 0 ∧ (acqAt 3 Acq.init []).acqQ 31 ≠ 0) ∧
    ((auto 1).acqState 31 = acqReady ∧ (auto 1).act (clusterIx 31) 0x40 = 2 ∧ (auto 1).acqQ 31 ≠ 0 ∧
      ((auto 1).acqOf 31).readySince + 1000 * (auto 1).act (clusterIx 31) 0x58 ≤ (auto 1).cycle ∧
      (auto 2).cycle < ((auto 2).acqOf 31).readySince + 1000 * (auto 2).act (clusterIx 31) 0x58) := by
  simp only [Device.accepts]
  and_intros <;> decide +kernel

theorem meets_SampleSetsAndCaptureEnd :
    let adc (s : Nat) (n : Nat) : Device := acqAt s { Acq.init with index := n } [(akey (okey (clusterIx 31) 0x42), 1), (akey (okey (clusterIx 31) 0x56), 2)]
    let ppmu (s n : Nat) : Device := (adc s n).put (akey (okey (clusterIx 31) 0x41)) 1
    let forced (q : Nat) : Device := (acqAt 3 { Acq.init with forcing := true } [(akey (okey (clusterIx 31) 0x42), 1), (akey (okey (clusterIx 31) 0x56), q)]).put (akey (okey (clusterIx 31) 0x41)) 1
    let tmu := acqAt 4 { Acq.init with offers := [(511, ⟨true, 0, false, 0⟩)] } []
    (((forced 1).acqOf 31).forcing = true ∧ (forced 1).acqState 31 = acqReady ∧ (forced 1).acqQ 31 = 1 ∧ (forced 2).acqQ 31 = 2 ∧
      (forced 1).acqArmed 31 = true ∧ (forced 1).acqTmu 31 = false ∧ (forced 1).act (clusterIx 31) 0x52 ≠ 3) ∧
    (tmu.acqTmu 31 = true ∧ (tmu.acqOf 31).offers ≠ [] ∧ tmu.acqArmed 31 = true ∧ tmu.acqState 31 = acqCapturing ∧ tmu.act (clusterIx 31) 0x52 ≠ 3) ∧
    ((acqAt 4 Acq.init []).acqTmu 31 = true ∧ ((acqAt 4 Acq.init []).acqOf 31).offers = [] ∧ (acqAt 0 Acq.init []).acqArmed 31 = false ∧
      (ppmu 0 0).acqTmu 31 = false ∧ (ppmu 0 0).acqArmed 31 = false) ∧
    (ppmu 3 0).boot.held = false ∧ (acqAt 1 Acq.init []).acqState 31 = acqAdmitting ∧
    ((ppmu 3 0).acqArmed 31 = true ∧ (ppmu 3 0).acqState 31 ≠ acqAdmitting ∧ (ppmu 3 0).acqTmu 31 = false ∧
      (ppmu 3 0).act (clusterIx 31) 0x52 ≠ 3 ∧ (ppmu 3 0).acqState 31 ≠ acqCapturing) ∧
    ((ppmu 4 0).acqState 31 = acqCapturing ∧ ((ppmu 4 0).acqOf 31).index + 1 < (ppmu 4 0).acqQ 31 ∧
      (ppmu 4 1).acqQ 31 ≤ ((ppmu 4 1).acqOf 31).index + 1) ∧
    ((acqAt 5 Acq.init []).acqState 31 = acqWriting ∧ ((acqAt 5 Acq.init []).acqOf 31).disarmed = false ∧
      (acqAt 5 Acq.init []).act (clusterIx 31) 0x40 = 1) ∧
    ((acqAt 5 { Acq.init with disarmed := true } []).acqOf 31).disarmed = true ∧
    ((acqAt 5 Acq.init [(akey (okey (clusterIx 31) 0x40), 0), (akey (okey (clusterIx 31) 0x57), 0)]).act (clusterIx 31) 0x40 ≠ 1 ∧
      (acqAt 5 Acq.init [(akey (okey (clusterIx 31) 0x40), 0), (akey (okey (clusterIx 31) 0x57), 0)]).act (clusterIx 31) 0x57 = 0) := by
  and_intros <;> decide +kernel

/-! ## Premises: pattern play -/

/-- Site 0 plays and its next vector boundary is in cycle 99,999,000. -/
def playing (z : Seq) : State := issuing { z with boundaryPs := 99999000000 }

/-- The same site with another part of the sequencer, so that the phase and issue stay as given. -/
def sequencer (z : Seq) : Device := ((issuing Seq.init).dev).setSeq 0 z

/-- A repeat of `n` vectors of state 0, `k` of them done. -/
def repeats (n k : Nat) : Play :=
  { blk := 2, total := n, done := k, interval := 0, iter := 0, rpt := true, uniform := some 0, mark := false, spec := false, ready := 99998000, base := 0, early := 0, wait := false, snap := IssueSnap.init }

def waiting (n : Nat) : Hold := .wait 99999000 7 false false n 3

theorem meets_VectorsAndEffectsCommit :
    let st := playing { Seq.init with items := [.vectors (repeats 2 0), .vectors (repeats 1 0)] }
    let c := 99999000
    let carried (e : Effect) := playing { Seq.init with items := [.effect 3 e false c, .vectors (repeats 2 0)] }
    let feeds : Device := { (carried (.capt 2)).dev with objs := [(okey (clusterIx 0) 0x60, acqReady), (akey (okey (clusterIx 0) 0x52), 1),
      (akey (okey (clusterIx 0) 0x56), 5)] ++ (carried (.capt 2)).dev.objs }
    st.running ∧ (st.dev.seqOf 0).phase = .play ∧ (st.dev.seqOf 0).boundaryPs / 1000 = c ∧ c ≤ st.dev.cycle ∧
    jumpDue (st.dev.seqOf 0) = false ∧ st.dev.pend = [] ∧
    ((st.dev.seqOf 0).hold = .none ∧ st.dev.canPlay 0 c (repeats 2 0) = true ∧ 0 + 1 < (repeats 2 0).total) ∧
    ((playing { Seq.init with items := [.vectors (repeats 2 1)] }).dev.canPlay 0 c (repeats 2 1) = true ∧
      (repeats 2 1).total ≤ (repeats 2 1).done + 1 ∧ (repeats 2 1).iter = 0) ∧
    ((playing { Seq.init with request := some (5, ⟨0, false, 0, false⟩) }).dev.seqOf 0).request = some (5, ⟨0, false, 0, false⟩) ∧
    ((playing { Seq.init with hold := .result }).dev.seqOf 0).hold = .result ∧
    st.dev.failed = false ∧ (st.dev.w 0x1200 0x01 8).failed = true ∧
    jumpDue { Seq.init with request := some (5, ⟨0, false, 0, false⟩), lastJump := some 53 } = true ∧
    ((playing { Seq.init with hold := waiting 0 }).dev.seqOf 0).hold = waiting 0 ∧
    ((playing { Seq.init with items := [.effect 3 (.halt 9) false c] }).dev.seqOf 0).items = [.effect 3 (.halt 9) false c] ∧
    ((playing { Seq.init with items := [.effect 3 (.wait 7 true true 5 255) true c] }).dev.seqOf 0).items =
      [.effect 3 (.wait 7 true true 5 255) true c] ∧
    (∀ e ∈ ([.tset 15, .lset 15, .signal 31 2, .capt 31] : List Effect), ((carried e).dev.seqOf 0).items = [.effect 3 e false c, .vectors (repeats 2 0)] ∧
      (carried e).dev.canPlay 0 c (repeats 2 0) = true) ∧
    ((carried (.tset 0)).dev.leadQuad 0 ∈ (carried (.tset 0)).dev.siteQuads 0 ∧ ((carried (.lset 0)).dev.dacOf 0).strobed ≠ (carried (.lset 0)).dev.cycle + 1) ∧
    ((∀ n ∈ [0, 3], n ∈ ((carried (.capt 1)).dev.put (okey (quadIx 0) 0x6B) 9).siteChans 0 ∧
      bit (((carried (.capt 1)).dev.put (okey (quadIx 0) 0x6B) 9).o (quadIx (n / 4)) 0x6B) (n % 4) = true)) ∧
    ((∃ q ∈ feeds.siteQuads 0, q / 4 = 0) ∧ feeds.act (clusterIx 0) 0x52 = 1 ∧ feeds.act (clusterIx 0) 0x53 = 0 ∧
      feeds.acqState 0 = acqReady ∧ feeds.acqQ 0 ≠ 0 ∧ feeds.canPlay 0 c (repeats 2 0) = true) ∧
    ((playing Seq.init).dev.atMark 0 = false ∧ (playing Seq.init).dev.stallPolicy 0 = 0 ∧ ((playing Seq.init).dev.seqOf 0).cond = none) ∧
    (playing { Seq.init with nextMark := true }).dev.atMark 0 = true := by
  simp only [State.running]
  and_intros <;> decide +kernel

theorem meets_WaitsEndAndResultsArrive :
    let line (z : Seq) : Device :=
      let d := (playing z).dev
      { d.put (okey 0x1580 1) (31 * 2 ^ 56) with event := { d.event with linePulse := 2 ^ 31 } }
    let vector (due : Nat) (ends : Bool) : Flight := ⟨6, 99999000, due, 2, [⟨511, 2, 0, 0, 0, 0⟩], ends, ends, 1, false⟩
    let onFail : Conditional := ⟨false, false, false, true, 3, 1, 0, 0, 0, false, 255, 255, 1, 7, false, IssueSnap.init⟩
    let judge : Conditional := ⟨true, false, false, false, 3, 0, 4, 1, 0, false, 2, 15, 0, 6, false, IssueSnap.init⟩
    (playing Seq.init).running ∧ (line Seq.init).boot.held = false ∧ ((playing Seq.init).dev.seqOf 0).hold = .none ∧
    (((line { Seq.init with hold := waiting 0 }).seqOf 0).hold = waiting 0 ∧ 99999000 ≤ (line Seq.init).cycle ∧
      ((line { Seq.init with hold := waiting 0 }).condInput ((line { Seq.init with hold := waiting 0 }).leadQuad 0) 7 == !false) = true) ∧
    (line { Seq.init with hold := .wait 99999000 7 false true 0 3 }).condEdge 0 7 false = true ∧
    ((playing { Seq.init with hold := waiting 0 }).dev.condInput 0 7 == !false) = false ∧
    (99999000 + 1000 ≤ (playing { Seq.init with hold := waiting 1000 }).dev.cycle ∧
      (playing { Seq.init with hold := waiting 1001 }).dev.cycle < 99999000 + 1001) ∧
    ((playing Seq.init).dev.seqOf 0).flights = [] ∧
    (((playing { Seq.init with flights := [vector 100000000 false] }).dev.seqOf 0).flights = [vector 100000000 false] ∧
      100000000 ≤ (playing Seq.init).dev.cycle ∧ (playing Seq.init).dev.cycle < (vector 100000001 false).due) ∧
    ((playing Seq.init).dev.failMask (vector 100000000 false).strobes [⟨511, [(0, 10 ^ 10)]⟩] = 2 ^ 511 ∧
      (playing Seq.init).dev.failMask (vector 100000000 false).strobes [⟨511, [(0, -10 ^ 10)]⟩] = 0 ∧
      ((playing Seq.init).dev.seqOf 0).logWait = []) ∧
    ((playing Seq.init).dev.act (siteIx 0) 0x1E = 0 ∧ (playing Seq.init).dev.failQueue 0 = noQueue ∧
      fld ((playing Seq.init).dev.o (siteIx 0) 0x3A) 26 1 = 0) ∧
    (∀ k ∈ [onFail, { onFail with upTo := 7 }], ((playing { Seq.init with cond := some k }).dev.seqOf 0).cond = some k) ∧
    (onFail.isMatch = false ∧ onFail.splice = false ∧ onFail.upTo = (vector 100000000 false).number + 1) ∧
    ((vector 100000000 true).inMatch = true ∧ (vector 100000000 true).ends = true ∧ judge.isMatch = true ∧ judge.splice = false ∧
      judge.owns = false ∧ judge.upTo ≤ (vector 100000000 true).number ∧ judge.failedIter = false ∧ judge.flag < 128 ∧ judge.counter < 128) ∧
    ((playing { Seq.init with cond := some judge, items := [.vectors (repeats 1 0)] }).dev.seqOf 0).cond = some judge := by
  simp only [State.running]
  and_intros <;> decide +kernel

theorem meets_StallsResumeAndEventsJump :
    let line (z : Seq) : Device :=
      let d := (playing z).dev
      { d.put (okey 0x1580 1) (31 * 2 ^ 56) with event := { d.event with linePulse := 2 ^ 31 } }
    let j : Jump := ⟨7, false, 3, false⟩
    let stalled (cause : Nat) : Device := (playing { Seq.init with hold := .stall 99999000 cause, issuing := false }).dev
    let asked (z : Seq) : Device := (playing { z with request := some (99999000, j) }).dev
    let sp : Jump := ⟨7, false, 3, true⟩
    let ahead := (playing { Seq.init with request := some (99998000, sp), items := [.vectors (repeats 2 0)] }).dev
    (stalled 1).boot.held = false ∧ ((playing Seq.init).dev.seqOf 0).hold = .none ∧ ((playing Seq.init).dev.seqOf 0).jump = none ∧
    (((stalled 1).seqOf 0).hold = .stall 99999000 1 ∧ ((stalled 1).siteQuads 0).all ((stalled 1).refilled 0) = true) ∧
    ((stalled 2).issueCaughtUp 0 = false ∧
      ((sequencer { Seq.init with phase := .play, blocks := 4, hold := .stall 99999000 2 }).issueCaughtUp 0 = true)) ∧
    (((line { Seq.init with jump := some j }).seqOf 0).jump = some j ∧ ((line { Seq.init with jump := some j }).seqOf 0).phase = .play ∧
      (line { Seq.init with jump := some j }).condEdge ((line { Seq.init with jump := some j }).leadQuad 0) 7 false = true ∧
      ((line { Seq.init with jump := some j }).seqOf 0).request = none) ∧
    (playing { Seq.init with jump := some j }).dev.condEdge 0 7 false = false ∧
    ((line { Seq.init with phase := .preload, jump := some j }).condEdge 0 7 false = true ∧
      ((line { Seq.init with phase := .preload, jump := some j }).seqOf 0).phase ≠ .off) ∧
    (((asked { Seq.init with hold := waiting 0 }).seqOf 0).request = some (99999000, j) ∧
      ((asked { Seq.init with hold := waiting 0 }).seqOf 0).hold = waiting 0 ∧ 99999000 ≤ (asked Seq.init).cycle) ∧
    ((asked Seq.init).seqOf 0).lastJump = none ∧ jumpAtFront ((asked Seq.init).seqOf 0) = false ∧
    (jumpAtFront ((asked { Seq.init with items := [.effect 3 .jumpMark false 5] }).seqOf 0) = true) ∧
    ((line { Seq.init with request := some (5, j) }).condEdge 0 7 false = true ∧ ((line { Seq.init with request := some (5, j) }).seqOf 0).request ≠ none) ∧
    (j.splice = false ∧ (ahead.seqOf 0).request = some (99998000, sp) ∧ sp.splice = true ∧ (ahead.seqOf 0).phase = .play ∧
      (ahead.seqOf 0).hold = .none ∧ (ahead.seqOf 0).cond = none ∧ jumpChosen (ahead.seqOf 0) = false ∧
      99998000 ≤ ahead.cycle ∧ ahead.sectionsIn 0 = true ∧
      (ahead.cutAtJump 0 (99998000 + 48) (boundaryFrom (ahead.seqOf 0).boundaryPs (1000 * (ahead.seqOf 0).resumeAt)
        (ahead.quadPeriod (ahead.leadQuad 0))) (ahead.quadPeriod (ahead.leadQuad 0)) (ahead.seqOf 0).items).isSome = true) ∧
    ((sp.splice = true ∧ (line { Seq.init with jump := some sp }).cycle < (line { Seq.init with jump := some sp }).nextBoundaryCycle 0) ∧
      j.splice = false) ∧
    (((asked { Seq.init with lastJump := some 99999048 }).seqOf 0).lastJump = some 99999048 ∧ 99999000 + 48 ≤ 99999048 ∧ 99999047 < 99999000 + 48) := by
  and_intros <;> decide +kernel

theorem meets_PatternsStartAndEnd :
    let loaded (z : Seq) : Device := (sequencer { z with phase := .preload, items := [.vectors (repeats 1 0)] }).setStream 0 Stream.init
    let ending (n : Nat) : Device := (sequencer { Seq.init with phase := .ending, haltPs := 1000 * (100000000 - n) }).setFlow 0 (stepOf .running 1)
    (loaded Seq.init).boot.held = false ∧
    ((loaded Seq.init).seqOf 0).phase = .preload ∧ ((loaded Seq.init).seqOf 0).preloaded = false ∧ (loaded Seq.init).preloadDone 0 = true ∧
    ((loaded Seq.init).seqOf 0).allowance = 0 ∧ ((loaded { Seq.init with allowance := 9 }).seqOf 0).allowance ≠ 0 ∧
    (((loaded Seq.init).flowOf 0).beginCycle + 9 ≤ (loaded Seq.init).cycle ∧ ((loaded Seq.init).seqOf 0).expired = false ∧
      (loaded Seq.init).cycle < ((loaded Seq.init).flowOf 0).beginCycle + 100000001) ∧
    ((loaded Seq.init).stallPolicy 0 = 0 ∧ ((loaded Seq.init).put (akey (okey (siteIx 0) 0x08)) 1).stallPolicy 0 ≠ 0) ∧
    (let body : Capture := ⟨1, 4, false⟩
     let closed (l : List (Nat × Byte)) := withBlocks l { Seq.init with captures := [body], loops := [⟨3, false, true, true, 1, 3⟩, ⟨3, false, false, false, 5, 7⟩] }
     let found (d : Device) := (d.seqOf 0).captures.find? fun k => !k.copied && d.bodyFetched 0 k
     found (closed [(16, 64), (64, 4), (72, 1)]).dev = some body ∧ (closed [(16, 64), (64, 4), (72, 1)]).dev.endlMatches 0 1 3 = true ∧
     found (closed []).dev = some body ∧ (closed []).dev.endlMatches 0 1 3 = false ∧ found (sequencer { Seq.init with captures := [⟨0, 4, true⟩] }) = none) ∧
    (((ending 16).seqOf 0).phase = .ending ∧ ((ending 16).seqOf 0).flights = [] ∧
      ((ending 16).seqOf 0).haltPs + 16000 ≤ 1000 * (ending 16).cycle ∧ (ending 16).runsStep 0 opRunPattern = true) ∧
    1000 * (ending 15).cycle < ((ending 15).seqOf 0).haltPs + 16000 := by
  and_intros <;> decide +kernel

theorem meets_StreamsAndControlStore :
    let bytes (n : Nat) : List Byte := leBytes 32 n
    let d := (sequencer { Seq.init with phase := .play, blocks := 4, items := [.vectors { repeats 1 0 with uniform := none, rpt := false }] })
    let stream (x : Stream) : Device := d.setStream 0 x
    let x := { Stream.init with length := 4096, fetched := 128 }
    let held := stream { x with pieces := [(0, leBytes 64 (2 ^ 128))] }
    let off := d.put (okey (quadIx 0) 0x60) 7
    (at_ []).running ∧ d.boot.held = false ∧ (at_ []).dev.siteOf 0 = none ∧ d.siteOf 0 = some 0 ∧
    ((d.setSeq 0 Seq.init).seqOf 0).phase = .off ∧ (d.seqOf 0).phase = .play ∧
    (((stream { x with resLen := 64 }).streamOf 0).resGot < ((stream { x with resLen := 64 }).streamOf 0).resLen ∧
      ((stream { x with resLen := 64, asked := [(128, true), (0, false)] }).streamOf 0).asked.find? (fun a => a.1 == 0) = some (0, false)) ∧
    ((∀ rt, (128, rt) ∉ ((stream x).streamOf 0).asked) ∧ (∀ rt ∈ [false, true],
      ((stream { x with asked := [(0, false), (128, rt)] }).streamOf 0).asked.find? (fun a => a.1 == 128) = some (128, rt)) ∧
      ((stream x).streamOf 0).pieceEnd 128 - 128 = 64) ∧
    (sectionAt ((stream x).streamOf 0).decoded.length (d.seqOf 0).items).isSome = true ∧
    sectionAt ((stream { x with decoded := [⟨2, [], 0, 0, true, 0⟩] }).streamOf 0).decoded.length (d.seqOf 0).items = none ∧
    ((stream x).sectionStart 0 0 2 = 16 ∧ (repeats 1 0).sectionCount = 1 ∧ peonyError (bytes 1) 1 4080 = none ∧
      sectionLen (peonyHeader (bytes 1)) = 32 ∧ (stream x).sectionPresent 0 0 (repeats 1 0) (16 + 32) = true ∧
      ((stream x).streamOf 0).poisoned 16 32 = false) ∧
    (held.streamBytes 0 (held.sectionStart 0 0 2) 32 = bytes 1 ∧ (d.seqOf 0).request = none ∧ (stream { x with poison := [0] }).sectionPresent 0 0 (repeats 1 0) 48 = true ∧
      ((stream { x with poison := [0] }).streamOf 0).poisoned 16 32 = true) ∧
    (((stream { x with fetched := 4096 }).streamOf 0).length ≤ ((stream { x with fetched := 4096 }).streamOf 0).fetched) ∧
    (∀ v ∈ [false, true], (d.streamPoison true 0 || v) = v) ∧
    (∀ p ∈ [Phase.preload, .ending], ((d.setSeq 0 { Seq.init with phase := p }).seqOf 0).phase = p) ∧
    peonyError (bytes 2) 1 4080 = some causeCount ∧ (stream { x with fetched := 47 }).sectionPresent 0 0 (repeats 1 0) 48 = false ∧
    ((off.storeRead 0 = false ∧ off.o (quadIx 0) 0x60 = 7 ∧ bit off.boot.reloaded 0 = false)) ∧
    ((∀ f ∈ ([⟨0, true, 0, 1⟩] : List LoadFault), f.quad = 0 → f.second ≠ bit off.boot.reloaded 0) ∧
      (storeLoad [⟨0, false, 0, 1⟩] false 0 [0] (storeCrc [0])).1 = [1] ∧ storeCrc [1] ≠ storeCrc [0]) ∧
    (bit { off.boot with reloaded := 1 }.reloaded 0 = true ∧ storeCrc [] = 0 ∧ off.o 0x1260 0x05 = 0 ∧ (off.put (okey 0x1260 5) 1).o 0x1260 0x05 = 1) ∧
    (d.storeRead 0 = true ∧ d.playingSite 0 = some 0 ∧ (at_ []).dev.storeRead 127 = true ∧ (at_ []).dev.playingSite 127 = none) := by
  simp only [State.running]
  and_intros <;> decide +kernel

theorem meets_RefclkLostAndRelocked :
    let flowing := (siteAt 2 (stepOf .running 4) []).dev
    let back (n : Nat) : Device := { (at_ []).dev with refclk := .returning, relock := n }
    (at_ []).running ∧ Device.reset.refclk = .absent ∧ flowing.boot.held = false ∧ (at_ []).dev.refclk = .present ∧
    ((flowing.flowOf 127).phase ≠ .idle ∧ (flowing.flowOf 127).phase ≠ .endCredit) ∧
    { (at_ []).dev with refclk := .lost }.refclk = .lost ∧ (at_ []).dev.o 0x1200 0x01 ≠ 1 ∧ ((at_ []).dev.w 0x1200 0x01 1).o 0x1200 0x01 = 1 ∧
    (let first := { ((at_ []).dev.w 0x1200 0x01 3) with refclk := .absent }
     first.boot.csp = none ∧ first.o 0x1200 0x01 = 3 ∧ first.boot.slotData = [] ∧ { first.boot with csp := some .host }.csp ≠ none) ∧
    ((back 0x80).refclk = .returning ∧ bit (back 0x80).relock 7 = true ∧ bit (back 0x80).relock 0 = false) := by
  simp only [State.running]
  and_intros <;> decide +kernel

/-! ## Premises: the ring -/

/-- A datagram in position mode to the first device. -/
def datagram (typ : Byte) (target : BitVec 64) (data : List Byte) : Datagram :=
  { typ := typ, tag := 0, addr := 0, mode := 0, flags := 0, len := BitVec.ofNat 16 data.length, target := target, data := data, wc := 0, sig := 0 }

/-- A frame of EtherType 0x88B5 with version `v` and a length field of `n`, on 64 bytes. -/
def ringFrame (v n : Nat) : List Byte :=
  List.replicate 12 0 ++ [0x88, 0xB5] ++ leBytes 2 n ++ [BitVec.ofNat 8 v, 0] ++ List.replicate 46 0

theorem meets_RingFramesPass :
    let d := onRing RingState.init []
    let held := onRing { RingState.init with held := [.obj (siteIx 127) 0x09 64], cyclic := true } []
    d.boot.held = false ∧ framePath ((at_ []).dev.o 0x1100 0x0A) .up = none ∧
    framePath (d.o 0x1100 0x0A) .up = some (true, .down) ∧ framePath (d.o 0x1100 0x0A) .down = some (false, .up) ∧
    ((List.replicate 63 0 : List Byte).length < 64 ∧ (ringFrame 1 0).length = 64) ∧
    (ofBE (((ringFrame 1 0).drop 12).take 2) = d.o 0x1100 0x01 ∧ ofBE (((ringFrame 1 0).drop 12).take 2) ≠ 0x8100 ∧
      ofBE (((List.replicate 64 0 : List Byte).drop 12).take 2) ≠ d.o 0x1100 0x01) ∧
    (16 ≤ ((ringFrame 16 0).getD 16 0).toNat ∧ (ringFrame 1 43).length < 22 + ofLE (((ringFrame 1 43).drop 14).take 2)) ∧
    (((ringFrame 15 42).getD 16 0).toNat < 16 ∧ ((ringFrame 15 42).getD 16 0).toNat ≠ 1 ∧
      22 + ofLE (((ringFrame 15 42).drop 14).take 2) ≤ (ringFrame 15 42).length) ∧
    (((ringFrame 1 0).getD 16 0).toNat = 1 ∧ ofLE (((ringFrame 1 0).drop 14).take 2) = 0 ∧ d.ring.held = []) ∧
    (held.ring.held = [.obj (siteIx 127) 0x09 64] ∧ held.accepts .ring (siteIx 127) 0x09 64 false ∧ held.ring.cyclic = true ∧
      held.ring.verdict ≠ some false) := by
  simp only [Device.accepts]
  and_intros <;> decide +kernel

/-- A version 1 frame with `dgs` as its datagrams. -/
def frameWith (dgs : List Byte) : List Byte :=
  List.replicate 12 0 ++ [0x88, 0xB5] ++ leBytes 2 dgs.length ++ [1, 0] ++ dgs ++ List.replicate 46 0

theorem meets_RingFramesPass_datagrams :
    let d := onRing RingState.init []
    let last := datagram 0x01 (BitVec.ofNat 64 (siteIx 0 + 2 ^ 16 * 9)) [0, 0, 0, 0]
    let more := { last with flags := 1 }
    let start (bs : List Byte) : Device := { (finishFrame d).w 0x1100 0x1E 0 with ring := { ((finishFrame d).w 0x1100 0x1E 0).ring with
      hop := 0, link := .up, cyclic := ((frameBody bs).getD 18 0).toNat == 0x30, position := 0, stopped := false } }
    let pass (p : Device × List Byte) (x : Datagram) : Device × List Byte :=
      (datagramIn .up x frameResidence p.1, p.2 ++ (datagramIn .up x frameResidence p.1).lastBytes (dgBytes x))
    let both := frameWith (dgBytes more ++ dgBytes last)
    let cut := frameWith (dgBytes more ++ [1, 2, 3])
    (d.boot.held = false ∧ d.ring.held = [] ∧ d.ring.stopped = false) ∧
    ((both.getD 16 0).toNat = 1 ∧ ofLE ((both.drop 14).take 2) = 48 ∧ 22 + 48 ≤ both.length ∧
      ((frameBody both).drop 18).take 48 = [more, last].flatMap dgBytes ++ [] ∧ (∀ x ∈ [more, last], x.data.length = dgLength x) ∧
      dgMore more = true ∧ (pass (start both, []) more).1.ring.stopped = false ∧ dgMore last = false) ∧
    (((frameBody cut).drop 18).take 27 = [more].flatMap dgBytes ++ [1, 2, 3] ∧ ([1, 2, 3] : List Byte).length < (dgParse [1, 2, 3]).2 ∧
      ([more].foldl pass (start cut, [])).1.ring.stopped = false) ∧
    (dgReservedOk { last with mode := 4 } = false ∧ dgWhole { last with data := [] } = false) := by
  and_intros <;> decide +kernel

/-- The targets of DRD, DRR and their writes: index, subindex, last subindex. -/
def target (ix sub last : Nat) : BitVec 64 := BitVec.ofNat 64 (ix + 2 ^ 16 * sub + 2 ^ 24 * last)

theorem meets_DatagramsReadAndWrite :
    let d := onRing RingState.init []
    let e := d.frameBefore d.ring.link false
    let c := e.addWrap 0x1100 0x18 8 1
    let site := siteIx 127
    d.boot.held = false ∧
    (∀ typ ∈ [(0x01 : Byte), 0x02, 0x03, 0x04], e.takesDatagram (datagram typ (target site 9 0) [1, 2, 3, 4])) ∧
    (∀ typ ∈ [(0x01 : Byte), 0x02], dgTarget (datagram typ (target site 9 1) []) 24 40 ≠ 0 ∧ dgTarget (datagram typ (target site 9 0) []) 24 40 = 0) ∧
    (c.readKind .ring site 9 = none ∧ c.readKind .ring site 0x0F = some 1) ∧
    (c.accessKind .ring true site 9 = none ∧ objSize site 9 = 4 ∧ c.accessKind .ring true site 3 = some 1) ∧
    (dgTarget (datagram 0x03 (target site 9 8) []) 24 8 < 9 ∧ dgTarget (datagram 0x03 (target site 9 9) []) 32 32 = 0 ∧
      dgTarget (datagram 0x03 (target site 9 9) []) 24 8 = 9 ∧ dgTarget (datagram 0x03 (target site 9 9) []) 16 8 = 9) ∧
    (indexDefined 0x0FFF = false ∧ indexDefined site = true ∧ objKind site 9 ≠ .undefined) := by
  simp only [Device.takesDatagram]
  and_intros <;> decide +kernel

theorem meets_BulkTransfersComplete :
    let b (space unit addr n : Nat) : Bulk := ⟨.up, space, unit, addr, List.replicate n 7, false⟩
    let d := onRing RingState.init []
    let e := d.frameBefore .up false
    let full := onRing { RingState.init with ingress := List.replicate 64 (b 2 31 0 4096) } []
    let low := (with_ id [(portKey .ring 0x1000 0x10, 0)]).dev
    let holds (x : Bulk) (l : List (Nat × Nat)) : Device := onRing { RingState.init with ingress := [x] } l
    let memory := channelAt 14 3 ++ channelAt 15 3 ++ [(okey 0x1647 0x01, 1), (okey 0x1647 0x02, 2 ^ 35)]
    let sram := BitVec.ofNat 64 (2 * 2 ^ 56 + 31 * 2 ^ 40 + 0xFFFFC)
    let reads (s : Nat) : RingState := { RingState.init with readSpace := s, readBase := if s = 2 then sramKey 31 0xFFFFC else 7 * 2 ^ 36, readLen := 4 }
    d.boot.held = false ∧ full.boot.held = false ∧ low.boot.held = false ∧
    (e.takesDatagram (datagram 0x10 sram [1, 2, 3, 4]) ∧ bulkTarget sram.toNat = some ⟨2, 31, 0xFFFFC⟩ ∧
      e.targetOk ⟨2, 31, 0xFFFFC⟩ 4 = true ∧ 1 ≤ e.role .ring ∧ e.ingressBytes .up + 4 ≤ 262144) ∧
    (bulkTarget (3 * 2 ^ 56) = none ∧ low.role .ring < 1 ∧ 262144 < full.ingressBytes .up + 4) ∧
    d.nextBulk = none ∧ (holds (b 2 31 0xFFFFC 4) []).nextBulk = some (b 2 31 0xFFFFC 4) ∧
    (let asked := onRing { reads 2 with readLen := 4 } [(okey 0x1100 0x15, 1)]
     let up : SramWord := ⟨sramKey 31 0xFFFFC / 4, by decide⟩
     asked.o 0x1100 0x15 = 1 ∧ asked.ring.readBase ≤ 4 * up.val ∧ 4 * up.val < asked.ring.readBase + 4) ∧
    (let queued := (holds (b 0 0 (7 * 2 ^ 36) 4) memory).settleIngress
     let words := (holds (b 2 31 0xFFFFC 4) memory).settleIngress
     queued.ring.queued = [(1, b 0 0 (7 * 2 ^ 36) 4)] ∧
     (queued.ring.queued.find? fun p => (bulkTiles p.2).all fun t => !(queued.tileWaits t)) = some (1, b 0 0 (7 * 2 ^ 36) 4) ∧
     (∃ j < 32, ((queued.subOf j).writes.map fun w => (w.bulk, w.burst, w.data[0]?)) = [(1, 7 * 2 ^ 30, some (some 7))]) ∧
     (words.ring.queued.find? fun p => (bulkTiles p.2).all fun t => !(words.tileWaits t)) = some (1, b 2 31 0xFFFFC 4) ∧
     ∀ p ∈ d.settleIngress.ring.queued, (bulkTiles p.2).any d.settleIngress.tileWaits = true) ∧
    ((holds (b 0 0 (7 * 2 ^ 36) 4) []).nextBulk = some (b 0 0 (7 * 2 ^ 36) 4) ∧ (holds (b 0 0 (7 * 2 ^ 36) 4) []).tileTakes (addrTile (7 * 2 ^ 36)) = false) ∧
    ((holds (b 0 0 (7 * 2 ^ 36) 4) memory).nextBulk = some (b 0 0 (7 * 2 ^ 36) 4) ∧ (holds (b 0 0 (7 * 2 ^ 36) 4) memory).tileTakes (addrTile (7 * 2 ^ 36)) = true) ∧
    ((∀ l ∈ [memory, []], (holds (b 1 128 0 4) l).nextBulk = some (b 1 128 0 4)) ∧ (b 1 128 0 4).addr + (b 1 128 0 4).data.length ≤ 2 ^ 36 ∧
      (bulkTiles (b 1 128 0 4)).all (holds (b 1 128 0 4) memory).tileTakes = true ∧ tilesOf 128 = [7]) ∧
    ((bulkTiles (b 0 0 (7 * 2 ^ 36) 4)).all (holds (b 0 0 (7 * 2 ^ 36) 4) memory).tileTakes = true ∧
      (bulkTiles (b 0 0 (7 * 2 ^ 36 - 1) 4)).all (holds (b 0 0 (7 * 2 ^ 36 - 1) 4) memory).tileTakes = false) ∧
    (rangeTiles (7 * 2 ^ 36) 4 = [7] ∧ rangeTiles (7 * 2 ^ 36 - 1) 4 = [6, 7]) ∧
    (e.takesDatagram (datagram 0x11 sram [4, 0, 0, 0]) ∧ ofLE (dgData (datagram 0x11 sram [4, 0, 0, 0])) = 4 ∧
      ofLE (dgData (datagram 0x11 sram [0, 0, 0, 0])) = 0) ∧
    (d.o 0x1100 0x15 ≠ 1 ∧ (onRing (reads 2) [(okey 0x1100 0x15, 1)]).o 0x1100 0x15 = 1 ∧ (onRing (reads 2) []).ring.readSpace = 2) ∧
    ((onRing (reads 0) []).ring.readSpace = 0 ∧ (onRing (reads 0) []).tileWaits 7 = false ∧ (onRing (reads 0) []).tileTakes 7 = false ∧
      (onRing (reads 0) memory).tileTakes 7 = true ∧ (onRing (reads 0) memory).tileWaits 7 = false ∧
      (onRing { reads 0 with cyclic := false } (channelAt 14 5)).tileWaits 7 = true) ∧
    (e.takesDatagram (datagram 0x12 sram [0, 0, 0, 0]) ∧ e.readCovers ⟨2, 31, 0xFFFFC⟩ 4 = false ∧
      ((onRing (reads 2) [(okey 0x1100 0x15, 2)]).frameBefore .up false).readCovers ⟨2, 31, 0xFFFFC⟩ 4 = true) := by
  simp only [Device.takesDatagram]
  and_intros <;> decide +kernel

theorem meets_RingTimeAndEventCollection :
    let d := onRing RingState.init []
    let sync := { datagram 0x30 0 (List.replicate 52 0) with mode := 2 }
    let off (n : Nat) : Int := sx 80 (ux 80 (({ d with ringNs := n }.localTime : Int) - d.syncReference (dgData sync)))
    let late := { onRing RingState.init [(okey 0x1100 0x04, 253)] with ring := { RingState.init with prevCyclic := .missed } }
    let evt := { datagram 0x20 0 (List.replicate 16 0) with mode := 2 }
    let reports := { d with event := { EventState.init with reports := [⟨2, 1, 5⟩] } }
    d.boot.held = false ∧ (d.ring.position = 0 ∧ sync.target = 0 ∧ (d.frameBefore d.ring.link true).takesDatagram sync) ∧
    ((off 1000).natAbs ≤ 65536000 ∧ -2147483648 ≤ off 1000 ∧ off 1000 ≤ 2147483647 ∧ 65536000 < (off 1001).natAbs) ∧
    (late.ring.prevCyclic = .missed ∧ late.o 0x1100 0x04 ≤ 253) ∧ 253 < d.o 0x1100 0x04 ∧
    (d.frameBefore d.ring.link false).takesDatagram (datagram 0x31 0 (List.replicate 10 0)) ∧
    ({ d with cycle := 9999999 }.cycle < d.ring.lastSync + 10000000 ∧ d.ring.lockBad < 8 ∧ d.ring.lastSync + 10000000 ≤ d.cycle) ∧
    (d.o 0x1100 0x0E ≠ 1 ∧ (onRing RingState.init [(okey 0x1100 0x0E, 1)]).o 0x1100 0x0E = 1) ∧
    ((d.frameBefore d.ring.link false).takesDatagram evt ∧ (d.frameBefore d.ring.link false).nextReport = none ∧
      (reports.frameBefore d.ring.link false).nextReport = some ⟨2, 1, 5⟩ ∧ dgData evt = List.replicate 16 0) := by
  simp only [Device.takesDatagram]
  and_intros <;> decide +kernel

theorem meets_RingStatesAndLinks :
    let run (c : Nat) (l : List (Nat × Nat)) : Device :=
      { (with_ id l).dev with objs := l ++ [(okey 0x1100 0x05, 3)], ring := { RingState.init with lastCyclic := 100000000 - c } }
    let apart := { (at_ []).dev with objs := [(okey 0x1200 0x01, 5)] }
    (run 1000000 []).boot.held = false ∧ apart.boot.held = false ∧
    (1000 * (run 1000000 []).o 0x1100 0x07 ≠ 0 ∧ (run 1000000 []).cycle ≤ (run 1000000 []).ring.lastCyclic + 1000 * (run 1000000 []).o 0x1100 0x07) ∧
    ((run 1000001 []).ring.lastCyclic + 1000 * (run 1000001 []).o 0x1100 0x07 < (run 1000001 []).cycle ∧ (run 1000001 []).o 0x1100 0x05 = 3) ∧
    ((onRing RingState.init []).accepts .ring 0x1100 0x06 2 false ∧ (onRing RingState.init []).accepts .ring 0x1100 0x06 3 false ∧
      (onRing RingState.init []).joined = true ∧ apart.joined = false) ∧
    ((onRing RingState.init [(okey 0x1100 0x06, 3), (okey 0x1100 0x0E, 1)]).o 0x1100 0x06 = 3 ∧
      (onRing RingState.init [(okey 0x1100 0x0E, 1)]).o 0x1100 0x0E = 1 ∧ (onRing RingState.init []).o 0x1100 0x05 ≠ 3) ∧
    ((at_ []).dev.joined = true ∧ portStatus (setBit (3 % 4) (linkBit .down) true) = 3 ∧ (onRing RingState.init []).o 0x1100 0x0A = 3 ∧
      (at_ []).dev.o 0x1100 0x0A = 0 ∧ portStatus (setBit (0 % 4) (linkBit .up) true) ≠ 0) ∧
    (bit ((onRing RingState.init []).o 0x1100 0x0A % 4) (linkBit .up) = true ∧ bit ((at_ []).dev.o 0x1100 0x0A % 4) (linkBit .up) = false ∧
      (at_ []).dev.o 0x1200 0x01 ≠ 5 ∧ bit (apart.o 0x1100 0x0A % 4) (linkBit .down) = false) ∧
    (apart.o 0x1200 0x01 = 5 ∧ apart.joined = false) := by
  simp only [Device.accepts]
  and_intros <;> decide +kernel
/-! ## A slot that passes: the SHA-384 of a whole image, cut into theorems over its parts -/

/-- A run of zero bytes. -/
def zeros (n : Nat) : List Byte := List.replicate n 0

/-- Three rotations of a 64-bit word, in operations that the kernel takes at once. -/
def turn (p q r x : Nat) : Nat :=
  Nat.xor (Nat.xor (Nat.add (Nat.div x (Nat.pow 2 p)) (Nat.mul (Nat.mod x (Nat.pow 2 p)) (Nat.pow 2 (Nat.sub 64 p))))
    (Nat.add (Nat.div x (Nat.pow 2 q)) (Nat.mul (Nat.mod x (Nat.pow 2 q)) (Nat.pow 2 (Nat.sub 64 q)))))
    (Nat.add (Nat.div x (Nat.pow 2 r)) (Nat.mul (Nat.mod x (Nat.pow 2 r)) (Nat.pow 2 (Nat.sub 64 r))))

/-- The rounds over a block of zeros. -/
def zeroRounds : List Nat → Nat → Nat → Nat → Nat → Nat → Nat → Nat → Nat → List Nat
  | [], a, b, c, d, e, f, g, h => [a, b, c, d, e, f, g, h]
  | k :: l, a, b, c, d, e, f, g, h =>
    (fun t => zeroRounds l
        (Nat.mod (Nat.add t (Nat.add (turn 28 34 39 a) (Nat.xor (Nat.xor (Nat.land a b) (Nat.land a c)) (Nat.land b c)))) (Nat.pow 2 64))
        a b c (Nat.mod (Nat.add d t) (Nat.pow 2 64)) e f g)
      (Nat.add (Nat.add (Nat.add h (turn 14 18 41 e)) (Nat.xor (Nat.land e f) (Nat.land (Nat.sub (Nat.sub (Nat.pow 2 64) 1) e) g))) k)

theorem zeroRounds_eq (l : List Nat) (a b c d e f g h : Nat) :
    shaRounds sha384Params [a, b, c, d, e, f, g, h] (l.map fun k => (k, 0)) = zeroRounds l a b c d e f g h := by
  induction l generalizing a b c d e f g h with
  | nil => rfl
  | cons k l ih => exact ih _ _ _ _ _ _ _ _

/-- A block of zeros into the hash value. -/
def zeroBlock : List Nat → List Nat
  | [a, b, c, d, e, f, g, i] =>
    ([a, b, c, d, e, f, g, i].zip (zeroRounds shaK a b c d e f g i)).map fun x => Nat.mod (Nat.add x.1 x.2) (Nat.pow 2 64)
  | h => shaBlock sha384Params h (zeros 128)

def zeroBlocks : Nat → List Nat → List Nat
  | 0, h => h
  | n + 1, h => zeroBlocks n (zeroBlock h)

theorem zeroSchedule : sha384Params.k.zip (shaSchedule sha384Params (sha384Params.k.length - 16)
    (beWords (sha384Params.w / 8) 16 (zeros 128)).reverse).reverse = shaK.map fun k => (k, 0) := by
  decide +kernel

theorem zeroBlock_eq (h : List Nat) : shaBlock sha384Params h (zeros 128) = zeroBlock h := by
  unfold zeroBlock
  split
  · rw [shaBlock, zeroSchedule, zeroRounds_eq]
    rfl
  · rfl

theorem zeros_take {n m : Nat} (h : n ≤ m) : (zeros m).take n = zeros n := by simp [zeros, List.take_replicate, h]

theorem zeros_drop (n m : Nat) : (zeros m).drop n = zeros (m - n) := by simp [zeros]

theorem zeroBlocks_eq (n : Nat) (h : List Nat) : shaBlocks sha384Params n h (zeros (128 * n)) = zeroBlocks n h := by
  induction n generalizing h with
  | zero => rfl
  | succ n ih =>
    have l : 2 * sha384Params.w = 128 := rfl
    rw [shaBlocks, zeroBlocks, l, zeros_take (by omega), zeros_drop, zeroBlock_eq, ← ih, Nat.mul_succ, Nat.add_sub_cancel]

theorem shaBlocks_append (n k : Nat) (h : List Nat) (x y : List Byte) (e : x.length = 128 * n) :
    shaBlocks sha384Params (n + k) h (x ++ y) = shaBlocks sha384Params k (shaBlocks sha384Params n h x) y := by
  induction n generalizing h x with
  | zero => simp [List.eq_nil_of_length_eq_zero e, shaBlocks]
  | succ n ih =>
    have l : 2 * sha384Params.w = 128 := rfl
    rw [Nat.add_right_comm n 1 k, shaBlocks, shaBlocks, l, List.take_append_of_le_length (by omega), List.drop_append_of_le_length (by omega)]
    exact ih _ _ (by simp; omega)

theorem zeroBlocks_add (n m : Nat) (h : List Nat) : zeroBlocks (n + m) h = zeroBlocks m (zeroBlocks n h) := by
  induction n generalizing h with
  | zero => simp [zeroBlocks]
  | succ n ih => rw [Nat.add_right_comm, zeroBlocks, zeroBlocks, ih]

def ones : List Byte := [0xFF, 0xFF, 0xFF, 0xFF]

/-- The first 512 bytes: the magic, version 1, 122,048 bytes, security version 7, five sections one after the other. -/
def slotHead : List Byte :=
  leBytes 4 0x314B4247 ++ leBytes 4 1 ++ leBytes 4 122048 ++ leBytes 4 7 ++ leBytes 4 (5 * 2 ^ 16) ++ zeros 236 ++
  ([(1, 4096, 65536), (2, 69632, 48), (3, 69696, 49168), (4, 118912, 64), (5, 118976, 3072)] : List (Nat × Nat × Nat)).flatMap
    (fun x => leBytes 4 x.1 ++ leBytes 4 x.2.1 ++ leBytes 4 x.2.2 ++ ones ++ zeros 16) ++ zeros 96

def gxBytes : List Byte := beBytes 48 p384Gx

/-- The public key is the generator; with the secret key 1 and the nonce 1, r is its x coordinate and s the image digest plus r
(FIPS 186-5). -/
def slotAuth : List Byte :=
  4 :: (gxBytes ++ beBytes 48 p384Gy) ++ zeros 3 ++ gxBytes ++ beBytes 48
    0x51894571b5fd67568dd1e2742bfcf33876510812f7f038b15f559e9d60e38bb0d71e25f618a897eb5e57ed27c78419a9 ++ zeros 60

/-- The sections: each begins with four bytes of ones, which take the running CRC-32 to 0, and goes on with zeros. -/
def slotBody : List Byte :=
  ones ++ (zeros 65532 ++ (ones ++ (zeros 60 ++ (ones ++ (zeros 49212 ++ (ones ++ (zeros 60 ++ (ones ++ zeros 3068))))))))

/-- A slot with an image that passes: microcode of zeros, one FIRMWARE page. -/
def goodSlot : List Byte := (slotHead ++ zeros 3328) ++ (slotAuth ++ slotBody)

def goodDigest : List Byte := beBytes 48 0xa7017b4ef772621eff201b5538dc45c40833ccb06c489d18ccc1aa3ed2c68f57da35414aa20415fa10efa85a21d33865

/-- The SHA-384 of the key's 97 bytes, its first byte the least significant. -/
def goodKeyHash : Nat := 0x1dd5e1afb0969cd83edacd4c19820fc9a05bb4f440a2f442388caffb48d02f21e50d135a70067686edf9b71224264f8c

def hash4 : List Nat :=
    [0x5C36EA5796D15A4C, 0xD1EC4BE8A0E7D979, 0x90FA165956D9D6D0, 0x6CD84155F714183C,
     0x7350157D0CDD581D, 0x1CC89A8565FBC66C, 0x905D162268ACC56F, 0x6FA5E46FC98EB09B]
def hash30 : List Nat :=
    [0x0B3E1425F7CA3F7D, 0x9EC763AC0EB56EC9, 0x702134F34DD20CDD, 0x377A47CFCA12F797,
     0x12971BBDAD8D646F, 0x7159D19A4EB87AB1, 0x1BD3E80DB04327E0, 0x52F7225A93A47F60]
def hash31 : List Nat :=
    [0x5BD18F9E4450E780, 0x70766B6D9E6DC095, 0x0DA7D392D895783A, 0xEB90A6DF4D9DC9AB,
     0xBB69241DA84B3990, 0x2E2213C454887E4E, 0x54319D4DE9F56B29, 0xD0EA8CD9199F763D]
def hash159 : List Nat :=
    [0x5BD34F62A5D6DFBE, 0x3EC3BBA11BBCD3DE, 0xAB5D9F3E1EAF0602, 0xD1083DC7DFF10806,
     0x9AA76C43623361F0, 0x285B86732C04442F, 0xBAC1944D4FED31FE, 0x4E82081062E4842F]
def hash287 : List Nat :=
    [0xE36FD3E365CA3E86, 0xC369BC5FD9320657, 0xF603996AC02C431E, 0xF535B94316A7698E,
     0xE51E3CEFD203F2F8, 0x0575DE1E4086D8EB, 0xC20444F9E1556C8F, 0xBEADD080B8303BF2]
def hash415 : List Nat :=
    [0xCBD0166399DF095A, 0x84D0F32EAC1C1253, 0x5BBA386C2ACD2730, 0x67FF56847D863F2F,
     0xD07BBA832B54391B, 0x9449B3B96A36B192, 0xF40222D8643380A5, 0x2C0B40D9E771C5B8]
def hash542 : List Nat :=
    [0x959CF160327A0D57, 0xC0E65846D051560E, 0xBD5FF983874673EA, 0xC3970B1D28C98C04,
     0xC6129B64FCA5B78B, 0xA5D4AF9F8A6713D4, 0xB6BB2CE03471018C, 0x49E44DF313D5B982]
def hash543 : List Nat :=
    [0x9F3829135FE4B53C, 0xF21AB88D54D66A6C, 0x9E912180FA2C166D, 0x0B6D7750A33437D5,
     0xD82BA637C8E14967, 0x15926743BEA548EB, 0x6777A34C2C79DF4A, 0x4B430D7AE24DF849]
def hash671 : List Nat :=
    [0xBA20250BCE116B66, 0x50F8400BCEF10F44, 0x2020E90D8611FA03, 0xA50F9D3D36DFD47E,
     0x6CBF06D9B90EB89D, 0x7A12243FEA57AD8C, 0x59CA4418386D7419, 0xE8C954C154B48C4B]
def hash799 : List Nat :=
    [0xE2B358150D20C75C, 0x3BF08AE60220FAE3, 0xA5EF95C6DBF7B3FB, 0xFB13780AEFE644E0,
     0x9A5ECA1263335A04, 0x8B9AA8113FD34214, 0x114B486BD2B79A51, 0xA7EE1745DB1DE9B4]
def hash927 : List Nat :=
    [0xC645E7F5F86F9369, 0x3DB01591BF171DFB, 0x900A7CAA359443F9, 0x7053C6214208F311,
     0xC53B95B76BD5084B, 0xE60475D3F235253E, 0x7A95438572108FE1, 0x131B92C613EA59CF]
def hash928 : List Nat :=
    [0x9A86E04A6709F5F0, 0x04E61B13BC26CAD8, 0x72BD887CABFF50E2, 0x909B296896944F94,
     0x8D81F7B7E40636E0, 0x5B122C890111D340, 0x3F03417318B1078B, 0x96417725F0ABA90C]
def hash951 : List Nat :=
    [0x95F90959AA471A1F, 0xDB34556435E77701, 0xB64EFBCED3EF3AE6, 0x32F5705E84B136B6,
     0xD2CBE519E706C611, 0x05F96FA97BB270A2, 0x88DB08B89E7FFF9F, 0xF6DBFB541A2842CC]
def hash952 : List Nat :=
    [0xA7017B4EF772621E, 0xFF201B5538DC45C4, 0x0833CCB06C489D18, 0xCCC1AA3ED2C68F57,
     0xDA35414AA20415FA, 0x10EFA85A21D33865, 0x3D0E09596BD9F349, 0xC536D01B93651F91]

theorem hashes0 : shaBlocks sha384Params 4 sha384Params.iv (slotHead) = hash4 := by decide +kernel
theorem hashes4 : zeroBlocks 26 hash4 = hash30 := by decide +kernel
theorem hashes30 : shaBlocks sha384Params 1 hash30 (ones ++ zeros 124) = hash31 := by decide +kernel
theorem hashes31 : zeroBlocks 128 hash31 = hash159 := by decide +kernel
theorem hashes159 : zeroBlocks 128 hash159 = hash287 := by decide +kernel
theorem hashes287 : zeroBlocks 128 hash287 = hash415 := by decide +kernel
theorem hashes415 : zeroBlocks 127 hash415 = hash542 := by decide +kernel
theorem hashes542 : shaBlocks sha384Params 1 hash542 (ones ++ zeros 60 ++ (ones ++ zeros 60)) = hash543 := by decide +kernel
theorem hashes543 : zeroBlocks 128 hash543 = hash671 := by decide +kernel
theorem hashes671 : zeroBlocks 128 hash671 = hash799 := by decide +kernel
theorem hashes799 : zeroBlocks 128 hash799 = hash927 := by decide +kernel
theorem hashes927 : shaBlocks sha384Params 1 hash927 (ones ++ zeros 60 ++ (ones ++ zeros 60)) = hash928 := by decide +kernel
theorem hashes928 : zeroBlocks 23 hash928 = hash951 := by decide +kernel
theorem hashes951 : shaBlocks sha384Params 1 hash951 (zeros 64 ++ ([0x80] ++ zeros 47 ++ beBytes 16 974336)) = hash952 := by decide +kernel

/-- What R338 hashes of the slot. -/
def slotMessage : List Byte := slotHead ++ zeros 3328 ++ slotBody

@[simp] theorem zeros_length (n : Nat) : (zeros n).length = n := List.length_replicate

theorem zeros_add (n m : Nat) : zeros (n + m) = zeros n ++ zeros m := by simp [zeros]

theorem slotHead_length : slotHead.length = 512 := by decide +kernel

theorem slotBody_length : slotBody.length = 117952 := by
  rw [slotBody]
  simp only [List.length_append, zeros_length, show ones.length = 4 from rfl, Nat.reduceAdd]

theorem slotMessage_length : slotMessage.length = 121792 := by simp [slotMessage, slotHead_length, slotBody_length]

theorem shaPad_of_length (l : List Byte) (n : Nat) (h : l.length = n) : shaPad sha384Params l =
    l ++ [0x80] ++ zeros ((2 * 128 - 1 - 16 - n % 128) % 128) ++ beBytes 16 (8 * n) := by
  subst h
  rfl

/-- The padded message, in parts of whole blocks. -/
theorem slotMessage_padded : shaPad sha384Params slotMessage = slotHead ++ (zeros (128 * 26) ++ ((ones ++ zeros 124) ++
    (zeros (128 * 511) ++ ((ones ++ zeros 60 ++ (ones ++ zeros 60)) ++ (zeros (128 * 384) ++ ((ones ++ zeros 60 ++ (ones ++ zeros 60)) ++
    (zeros (128 * 23) ++ (zeros 64 ++ ([0x80] ++ zeros 47 ++ beBytes 16 974336))))))))) := by
  rw [shaPad_of_length _ _ slotMessage_length, slotMessage, slotBody, show 65532 = 124 + 128 * 511 from rfl,
    show 49212 = 60 + 128 * 384 from rfl, show 3068 = 60 + (128 * 23 + 64) from rfl,
    show (2 * 128 - 1 - 16 - 121792 % 128) % 128 = 47 from rfl, show 8 * 121792 = 974336 from rfl, show 128 * 26 = 3328 from rfl]
  simp only [zeros_add, List.append_assoc]

theorem slotMessage_hash : shaBlocks sha384Params 952 sha384Params.iv (shaPad sha384Params slotMessage) = hash952 := by
  rw [slotMessage_padded, show 952 = 4 + (26 + (1 + (511 + (1 + (384 + (1 + (23 + 1))))))) from rfl,
    shaBlocks_append 4 _ _ _ _ slotHead_length, hashes0,
    shaBlocks_append 26 _ _ _ _ (zeros_length _), zeroBlocks_eq, hashes4,
    shaBlocks_append 1 _ _ _ _ (by simp [ones]), hashes30,
    shaBlocks_append 511 _ _ _ _ (zeros_length _), zeroBlocks_eq, show 511 = 128 + (128 + (128 + 127)) from rfl,
    zeroBlocks_add, hashes31, zeroBlocks_add, hashes159, zeroBlocks_add, hashes287, hashes415,
    shaBlocks_append 1 _ _ _ _ (by simp [ones]), hashes542,
    shaBlocks_append 384 _ _ _ _ (zeros_length _), zeroBlocks_eq, show 384 = 128 + (128 + 128) from rfl,
    zeroBlocks_add, hashes543, zeroBlocks_add, hashes671, hashes799,
    shaBlocks_append 1 _ _ _ _ (by simp [ones]), hashes927,
    shaBlocks_append 23 _ _ _ _ (zeros_length _), zeroBlocks_eq, hashes928, hashes951]

theorem shaWords_blocks (l : List Byte) (n : Nat) (h : (shaPad sha384Params l).length / 128 = n) :
    shaWords sha384Params l = shaBlocks sha384Params n sha384Params.iv (shaPad sha384Params l) := by
  subst h
  rfl

theorem slotMessage_blocks : (shaPad sha384Params slotMessage).length / 128 = 952 := by
  have b : (beBytes 16 974336).length = 16 := by decide +kernel
  rw [shaPad_of_length _ _ slotMessage_length, show (2 * 128 - 1 - 16 - 121792 % 128) % 128 = 47 from rfl,
    show 8 * 121792 = 974336 from rfl, List.length_append, List.length_append, List.length_append, slotMessage_length,
    zeros_length, b, List.length_singleton]

theorem slotMessage_digest : sha384 slotMessage = goodDigest := by
  rw [sha384, shaWords_blocks _ _ slotMessage_blocks, slotMessage_hash]
  decide +kernel

/-! Where the parts of the slot lie. -/

theorem take_part (a b c : List Byte) (n : Nat) (h : b.length = n) : ((a ++ (b ++ c)).drop a.length).take n = b := by
  rw [List.drop_left, ← h, List.take_left]

theorem part_at (l a b c : List Byte) (m n : Nat) (e : l = a ++ (b ++ c)) (ha : a.length = m) (hb : b.length = n) :
    (l.drop m).take n = b := by
  subst e ha
  exact take_part a b c n hb

theorem slotAuth_length : slotAuth.length = 256 := by decide +kernel

theorem goodSlot_digest : imageDigest goodSlot = goodDigest := by
  have l : imageLength goodSlot = 122048 := by decide +kernel
  have h : (slotHead ++ zeros 3328).length = 3840 := by simp [slotHead_length]
  have n : goodSlot.length = 122048 := by simp [goodSlot, slotHead_length, slotAuth_length, slotBody_length]
  have t : goodSlot.take 3840 = slotHead ++ zeros 3328 := by
    rw [goodSlot, ← h, List.take_left]
  have b : goodSlot.drop 4096 = slotBody := by
    rw [goodSlot, ← List.append_assoc, show 4096 = ((slotHead ++ zeros 3328) ++ slotAuth).length by simp [slotHead_length, slotAuth_length],
      List.drop_left]
  rw [imageDigest, l, t, ← n, List.take_length, b]
  exact slotMessage_digest

/-- The running CRC-32 of a section: the ones take it to 0, and zeros leave it there. -/
theorem crc32_section (n : Nat) : crc32 (ones ++ zeros n) = 0xFFFFFFFF := by
  have z (n : Nat) : crc32Run 0 (zeros n) = 0 := by
    induction n with
    | zero => rfl
    | succ n ih => exact ih
  have f : crc32Run 0xFFFFFFFF ones = 0 := by decide +kernel
  rw [crc32, crc32Run, List.foldl_append]
  change crc32Final (crc32Run (crc32Run 0xFFFFFFFF ones) (zeros n)) = _
  rw [f, z]
  rfl

theorem sectionTable_good : sectionTable goodSlot = [⟨1, 4096, 65536, 0xFFFFFFFF⟩, ⟨2, 69632, 48, 0xFFFFFFFF⟩,
    ⟨3, 69696, 49168, 0xFFFFFFFF⟩, ⟨4, 118912, 64, 0xFFFFFFFF⟩, ⟨5, 118976, 3072, 0xFFFFFFFF⟩] := by
  decide +kernel

/-- The bytes of the five sections. -/
theorem sections_good : sectionBytes goodSlot ⟨1, 4096, 65536, 0xFFFFFFFF⟩ = ones ++ zeros 65532 ∧
    sectionBytes goodSlot ⟨2, 69632, 48, 0xFFFFFFFF⟩ = ones ++ zeros 44 ∧
    sectionBytes goodSlot ⟨3, 69696, 49168, 0xFFFFFFFF⟩ = ones ++ zeros 49164 ∧
    sectionBytes goodSlot ⟨4, 118912, 64, 0xFFFFFFFF⟩ = ones ++ zeros 60 ∧
    sectionBytes goodSlot ⟨5, 118976, 3072, 0xFFFFFFFF⟩ = ones ++ zeros 3068 := by
  have o : ones.length = 4 := rfl
  let pre := (slotHead ++ zeros 3328) ++ slotAuth
  have p : pre.length = 4096 := by simp [pre, slotHead_length, slotAuth_length]
  have g : goodSlot = pre ++ slotBody := by simp only [goodSlot, pre, List.append_assoc]
  refine ⟨part_at _ pre _ (ones ++ (zeros 60 ++ (ones ++ (zeros 49212 ++ (ones ++ (zeros 60 ++ (ones ++ zeros 3068))))))) _ _ ?_ p ?_,
    part_at _ (pre ++ (ones ++ zeros 65532)) _ (zeros 16 ++ (ones ++ (zeros 49212 ++ (ones ++ (zeros 60 ++ (ones ++ zeros 3068)))))) _ _ ?_ ?_ ?_,
    part_at _ (pre ++ (ones ++ (zeros 65532 ++ (ones ++ zeros 60)))) _ (zeros 48 ++ (ones ++ (zeros 60 ++ (ones ++ zeros 3068)))) _ _ ?_ ?_ ?_,
    part_at _ (pre ++ (ones ++ (zeros 65532 ++ (ones ++ (zeros 60 ++ (ones ++ zeros 49212)))))) _ (ones ++ zeros 3068) _ _ ?_ ?_ ?_,
    part_at _ (pre ++ (ones ++ (zeros 65532 ++ (ones ++ (zeros 60 ++ (ones ++ (zeros 49212 ++ (ones ++ zeros 60)))))))) _ [] _ _ ?_ ?_ ?_⟩
  all_goals first
    | (simp only [List.length_append, zeros_length, p, o, Nat.reduceAdd])
    | (rw [g, slotBody]; simp only [List.append_assoc, List.append_nil]; done)
    | (rw [g, slotBody, show 60 = 44 + 16 from rfl, zeros_add]; simp only [List.append_assoc]; done)
    | (rw [g, slotBody, show 49212 = 49164 + 48 from rfl, zeros_add]; simp only [List.append_assoc])

theorem goodSlot_header : magicOk goodSlot = true ∧ headerOk goodSlot = true := by decide +kernel

theorem goodSlot_sections : sectionsOk goodSlot = true := by
  obtain ⟨s1, s2, s3, s4, s5⟩ := sections_good
  have m : bytesOf goodSlot 3 = ones ++ zeros 49164 := by
    rw [bytesOf, show sectionOf goodSlot 3 = ⟨3, 69696, 49168, 0xFFFFFFFF⟩ by rw [sectionOf, sectionsOf, sectionTable_good]; rfl, s3]
  rw [sectionsOk, sectionTable_good, m, Bool.and_eq_true]
  refine ⟨?_, ?_⟩
  · simp only [List.all_cons, List.all_nil, s1, s2, s3, s4, s5, crc32_section, beq_self_eq_true, Bool.and_self]
  · have z : ((ones ++ zeros 49164).drop 49162).take 2 = zeros 2 := by
      rw [show 49164 = 49158 + 6 from rfl, zeros_add, ← List.append_assoc, show 49162 = (ones ++ zeros 49158).length by simp [ones],
        List.drop_left, zeros_take (by decide)]
    rw [imageField, z]
    rfl

/-- The slot passes every check with the hash of its key, up to rollback 7. -/
theorem goodSlot_passes : imageFailure goodSlot goodKeyHash 7 = 0 := by
  rw [imageFailure, goodSlot_header.1, goodSlot_header.2, goodSlot_sections, goodSlot_digest]
  decide +kernel

/-! ## Premises: roles, boot, the cores and the serial ports -/

theorem meets_RolesAndObjects :
    let d := onRing RingState.init []
    let asked (f : Nat) : Device := { onRing { RingState.init with rolePending := (some 3, some 2) } [(portKey .ring 0x1000 0x14, f)] with boot := { BootState.init with released := 1, devkey := 5 } }
    let locked := onRing { RingState.init with lockoutEnd := (100000001, 100000001) } []
    let right := leBytes 2 32 ++ (asked 15).rightResponse .ring 3
    d.boot.held = false ∧ d.joined = true ∧ { d with objs := [] }.joined = false ∧
    (d.accepts .ring 0x1000 0x11 1 false ∧ d.accepts .ring 0x1000 0x11 3 false ∧ d.accepts .ssp 0x1000 0x11 2 false) ∧
    (d.accessKind .ring true 0x1000 0x13 = none ∧ right.length = objSize 0x1000 0x13 ∧ d.valueOk 0x1000 0x13 (ofLE right) = true) ∧
    (locked.lockedOut .ring = true ∧ d.lockedOut .ring = false ∧ d.pendingRole .ring = none) ∧
    ((asked 15).pendingRole .ring = some 3 ∧
      (ofLE right % 2 ^ 16 = 32 ∧ leBytes 32 (ofLE right / 2 ^ 16) = (asked 15).rightResponse .ring 3) ∧
      leBytes 32 0 ≠ (asked 15).rightResponse .ring 3 ∧ ((asked 15).get (portKey .ring 0x1000 0x14) + 1) % 16 = 0 ∧
      ((asked 16).get (portKey .ring 0x1000 0x14) + 1) % 16 ≠ 0) ∧
    d.accepts .ring 0x1100 0x1B (2 ^ 64 - 1) false ∧
    (d.accessKind .ring true 0x0FFF 0 = some 0 ∧ d.accessKind .ring true (siteIx 0) 3 = some 1 ∧ d.accessKind .ring true (siteIx 0) 7 = none ∧
      objSize (siteIx 0) 7 = 1 ∧ d.valueOk (siteIx 0) 7 33 = false) ∧
    ((0x233F : BitVec 16).toNat = dpsIx 63 ∧ d.accepts .ring (dpsIx 63) 0x02 0xFF800000 false) := by
  simp only [Device.accepts]
  and_intros <;> decide +kernel

/-- Boot in stage `n` with boot record `b` and the objects `l`. -/
def stage (n : Nat) (b : BootState) (l : List (Nat × Nat)) : Device :=
  { (at_ []).dev with objs := l ++ [(okey 0x1200 0x01, n)], boot := b }

/-- Stage 3 with the whole of `b` read, under the good slot's key and rollback value 7. -/
def slotRead (b : List Byte) (l : List (Nat × Nat)) : Device :=
  stage 3 { BootState.init with slotData := b, pkhash := BitVec.ofNat 384 goodKeyHash } ([(okey 0x1210 0x05, 7)] ++ l)

theorem goodSlot_read : (slotRead goodSlot []).slotWasRead = true := by
  have n : goodSlot.length = 122048 := by
    rw [goodSlot, List.length_append, List.length_append, List.length_append, slotHead_length, slotAuth_length, slotBody_length, zeros_length]
  have f : (slotRead goodSlot []).bootFrame = none := by
    have e : (slotRead goodSlot []).boot.slotData = goodSlot := rfl
    have x : goodSlot ≠ [] := fun h => absurd (h ▸ n) (by decide)
    have s : nextSwitch goodSlot (slotRead goodSlot []).boot.switched = none := by decide +kernel
    have l : imageLength goodSlot = 122048 := by decide +kernel
    rw [bootFrame, e, if_neg (by decide +kernel), if_neg x, headerPasses, goodSlot_header.1, goodSlot_header.2, if_neg (by decide), s,
      l, n]
    rfl
  have r : ((slotRead goodSlot []).o 0x1200 0x01 == 3 && (slotRead goodSlot []).refclk == .present &&
      !(slotRead goodSlot []).bootFrameRuns) = true := by decide +kernel
  rw [slotWasRead, r, f]
  rfl

theorem meets_BootStagesPass_frame : 4096 ≤ (zeros 4096).length ∧ (stage 3 { BootState.init with csp := some (.bootRead 4096) } []).refclk = .present := by
  rw [zeros_length]
  decide +kernel

theorem meets_BootStagesPass_slots :
    (slotRead goodSlot []).boot.held = false ∧ (slotRead goodSlot []).slotWasRead = true ∧
    imageFailure (slotRead goodSlot []).boot.slotData (slotRead goodSlot []).boot.pkhash.toNat ((slotRead goodSlot []).o 0x1210 0x05) = 0 ∧
    ((slotRead [1] [(okey 0x1210 0x02, 1)]).slotWasRead = true ∧ (slotRead [1] [(okey 0x1210 0x02, 1)]).boot.slot = 0 ∧
      bit ((slotRead [1] [(okey 0x1210 0x02, 1)]).o 0x1210 0x02) 0 = true ∧ imageFailure [1] goodKeyHash 7 = codeNoImage) ∧
    ((slotRead [1] []).slotWasRead = true ∧ bit ((slotRead [1] []).o 0x1210 0x02) 0 = false) ∧ (slotRead [] []).slotWasRead = false := by
  have k : (slotRead goodSlot []).boot.pkhash.toNat = goodKeyHash := by decide +kernel
  have r : (slotRead goodSlot []).o 0x1210 0x05 = 7 := by decide +kernel
  refine ⟨rfl, goodSlot_read, ?_, by decide +kernel, by decide +kernel, by decide +kernel⟩
  rw [k, r]
  exact goodSlot_passes

theorem slot_failures : authFailure (4 :: (gxBytes ++ beBytes 48 p384Gy)) gxBytes gxBytes (beBytes 48 0) 6 goodKeyHash 7 = codeRollback ∧
    authFailure (4 :: (gxBytes ++ beBytes 48 p384Gy)) gxBytes gxBytes (beBytes 48 1) 7 goodKeyHash 7 = codeSignature ∧
    authFailure (4 :: (gxBytes ++ beBytes 48 p384Gy)) gxBytes gxBytes (beBytes 48 0) 7 0 7 = codeKey := by
  and_intros <;> decide +kernel

theorem meets_BootStagesPass :
    let reads (n : Nat) : Device := stage 3 { BootState.init with csp := some (.bootRead 32768), slotData := [BitVec.ofNat 8 n] } []
    let eleven : BitVec 16384 := 0x7FF
    let im : Image := { stageImage 0 [] with microcode := [] }
    (stage 1 BootState.init []).boot.held = false ∧ (stage 1 BootState.init []).o 0x1200 0x01 = 1 ∧ (stage 2 BootState.init []).o 0x1200 0x01 = 2 ∧
    (segmentErrors (0x3FF : BitVec 16384).toNat 0 = 10 ∧ segmentErrors eleven.toNat 0 = 11 ∧ badMask eleven.toNat = 1 ∧
      badMask (2 ^ 16383 : BitVec 16384).toNat = 0 ∧ segmentErrors (2 ^ 16383 : BitVec 16384).toNat 7 = 1) ∧
    (bit (badMask eleven.toNat) 0 = true ∧ badMask eleven.toNat < 2 ∧ bit (badMask 0) 0 = false) ∧
    ((reads 9).boot.csp = some (.bootRead 32768) ∧ (reads 9).refclk = .present ∧ (32768 : BitVec 16).toNat ≤ 32768 ∧
      32768 < (32769 : BitVec 16).toNat) ∧
    ((stage 4 { BootState.init with image := some im } []).boot.image = some im ∧ im.defaults = [] ∧
      (stage 4 BootState.init []).linkUpNow = false ∧ (stage 4 BootState.init []).boot.image = none) ∧
    ((at_ [servicePort .ssp]).dev.accepts .ssp 0x1200 0x0B 1 (restartForbidden .ssp (at_ [servicePort .ssp]).dev) ∧
      (at_ [servicePort .ssp, (okey 0x1210 0x05, 63)]).dev.accepts .ssp 0x1210 0x05 64 false) := by
  simp only [Device.accepts]
  and_intros <;> decide +kernel

theorem meets_CoresAndPrimacy :
    let d := (at_ [servicePort .ssp]).dev
    let core (n : Nat) : Device := (at_ [(okey 0x1231 0x01, n)]).dev
    let w : BitVec 32 := BitVec.ofNat 32 (makeCopy 0 5)
    let e : BitVec 32 := BitVec.ofNat 32 (makeCopy 1 6)
    let safe := { d with boot := { d.boot with safeHold := true } }
    let torn := { d with boot := { d.boot with safeHold := true, pathW := ⟨1, 1, 0⟩ } }
    let c := BitVec.ofNat 32 (makeCopy 0 d.nextGen)
    let im : Image := { stageImage 0 [] with microcode := [], pageDigests := [sha384 [7]] }
    let paged := { core 1 with boot := { d.boot with pageMiss := [(1, (1023, 2))], image := some im } }
    let writing := { d with boot := { d.boot with writes := [⟨0, 0, [1], .enable, true⟩] } }
    let busy := { d with mem := { d.mem with grants := [⟨3, 0, [(0, 1)], true, false⟩] } }
    d.boot.held = false ∧ (core 1).o 0x1231 0x01 = 1 ∧ (core 2).o 0x1231 0x01 = 2 ∧ (core 0).o 0x1231 0x01 = 0 ∧ (core 3).o 0x1231 0x01 = 3 ∧
    (paged.windowBusy paged.bootSelect = false ∧ writing.windowBusy writing.bootSelect = true) ∧
    (paged.boot.image = some im ∧ im.pageDigests[(0 : BitVec 10).toNat]? = some (sha384 [7]) ∧
      im.pageDigests[(0 : BitVec 10).toNat]? ≠ some (sha384 [8]) ∧ im.pageDigests[(1023 : BitVec 10).toNat]? = none) ∧
    (paged.pageMisses 1 1023 = 2 ∧ paged.pageMisses 1 0 = 0 ∧ d.pageMisses 1 1023 = 0) ∧
    (majority ⟨w, w, e⟩ = some (makeCopy 0 5) ∧ majorityHalf ⟨w, w, e⟩ = 0 ∧ majority ⟨w, e, 0⟩ = none ∧ majorityHalf ⟨w, e, e⟩ = 1) ∧
    (d.accepts .ssp 0x1220 0x07 1 false ∧ safe.boot.safeHold = true ∧ d.boot.safeHold = false ∧ d.primacyBusy = false ∧
      busy.primacyBusy = true) ∧
    (torn.accepts .ssp 0x1220 0x07 0 false ∧
      majorityHalf ⟨c ^^^ torn.boot.pathW.c0, c ^^^ torn.boot.pathW.c1, c ^^^ torn.boot.pathW.c2⟩ ≠ 0 ∧
      majorityHalf ⟨c ^^^ safe.boot.pathW.c0, c ^^^ safe.boot.pathW.c1, c ^^^ safe.boot.pathW.c2⟩ = 0) ∧
    ((at_ supervised).dev.o 0x1220 0x04 ≤ 1 ∧ 1 < d.o 0x1220 0x04) ∧
    ((at_ [(okey 0x1200 0x01, 7)]).dev.boot.released = 1 ∧ (at_ [(okey 0x1200 0x01, 7)]).dev.o 0x1200 0x01 = 7) := by
  simp only [Device.accepts]
  and_intros <;> decide +kernel

/-- An SSP frame with its right header CRC (R352). -/
def sspOf (op : Nat) (ix : BitVec 16) (sub last : Byte) (len : BitVec 16) (data : List Byte) : SspFrame :=
  let f : SspFrame := ⟨true, ix, sub, last, len, 0, data, BitVec.ofNat 8 (crc8 (data.take len.toNat))⟩
  { f with hcrc := BitVec.ofNat 8 (crc8 (sspHeader op f)) }

theorem meets_SerialPortsServe_csp :
    let desc := 0x03 + 2 ^ 32 + 4 * 2 ^ 96
    let port (l : List (Nat × Nat)) (b : BootState) : Device := (with_ (fun d => { d with boot := b }) ([servicePort .ssp, (okey 0x1240 0x01, desc)] ++ l)).dev
    let free := { BootState.init with released := 1 }
    let polls (runs : Bool) : WindowWrite := ⟨3, 0x100, [1, 2], .poll 99000000 100000000, runs⟩
    let window := [(okey 0x1244 0x01, 1), (okey 0x1244 0x02, desc), (okey 0x1244 0x05, desc)]
    let rdy := desc + 2 ^ 57
    let held (f : CspFrame) : Device := port window { free with csp := some f, cspDesc := rdy, writes := [polls true] }
    (port [] free).boot.held = false ∧ (port [] free).accepts .ssp 0x1240 0x03 1 false ∧ (port [] free).o 0x1240 0x04 ≠ 1 ∧
    ((port [] free).o 0x1240 0x01 = desc ∧ cspGood true desc = true ∧ cspEmpty desc = false ∧ cspLength desc ≠ 0 ∧ cspWrites desc = false) ∧
    (cspWrites (desc + 2 ^ 58) = true ∧ cspGood true (desc + 2 ^ 58) = true ∧ 3 < cspLength (desc + 2 ^ 58)) ∧
    (cspGood true (desc + 4 * 2 ^ 120) = false ∧ cspEmpty 0 = true ∧ cspGood true 0 = true ∧ (port [(okey 0x1240 0x04, 1)] free).o 0x1240 0x04 = 1) ∧
    ((port [] free).boot.csp = none ∧ (port [] free).bootFrame = none ∧ (port [] free).boot.reads = [] ∧ (port [] free).boot.writes = []) ∧
    ((port [] { free with csp := some .host, cspDesc := rdy }).boot.csp = some .host ∧ (port [] { free with csp := some .host }).bootFrame = none ∧
      cspHonoursRdy rdy = true ∧ cspHonoursRdy desc = false ∧ 1000 * (port [] free).o 0x1240 0x06 ≠ 0 ∧
      0 + 1000 * (port [] free).o 0x1240 0x06 ≤ (port [] free).cycle) ∧
    (port [] { free with csp := some (.windowRead 3 16 4) }).boot.csp = some (.windowRead 3 16 4) ∧
    ((held (.program 3)).boot.csp = some (.program 3) ∧ (held (.program 3)).oldestWrite 3 = some (polls true) ∧ (polls true).runs = true) ∧
    ((held (.statusPoll 3)).boot.csp = some (.statusPoll 3) ∧ (held (.statusPoll 3)).oldestWrite 3 = some (polls true)) ∧
    (∀ f ∈ ([.bootRead 4096, .bootSwitch 3] : List CspFrame),
      ((held f).put (okey 0x1210 0x02) 1).boot.csp = some f ∧ ((held f).put (okey 0x1210 0x02) 1).boot.slot = 0 ∧
        bit (((held f).put (okey 0x1210 0x02) 1).o 0x1210 0x02) 0 = true ∧ cspHonoursRdy (held f).boot.cspDesc = true) ∧
    ((port [] free).winDesc 3 0x01 = 0 ∧ (port window free).winDesc 3 0x01 ≠ 0 ∧ cspDrives (cspPiece ((port window free).winDesc 3 0x02) 0xFFFFFFF 1) = true ∧
      cspDrives ((port window free).winDesc 3 0x03) = true) ∧
    ((nextFrame (port window free)).boot.csp ≠ some (.statusPoll 3) ∧ cspDrives ((port window free).winDesc 3 0x05) = true ∧
      (port window { free with writes := [polls false] }).bootFrame = none ∧ 100000000 ≤ (port [] free).cycle) ∧
    ((0 : Byte).toNat &&& (port [] free).winDesc 3 0x06 = (port [] free).winDesc 3 0x07 ∧
      (1 : Byte).toNat &&& (port [] free).winDesc 3 0x06 ≠ (port [] free).winDesc 3 0x07 ∧
      (polls true).data.length ≤ (port [] free).pieceLen (polls true)) ∧
    ((port [(okey 0x1244 0x0A, 1000)] { free with writes := [polls true] }).winDesc 3 0x0A = 1000 ∧
      (port [(okey 0x1244 0x0A, 1000)] { free with writes := [polls true] }).boot.csp ≠ some (.statusPoll 3) ∧
      99000000 + 1000 * 1000 ≤ (port [] free).cycle ∧ (port [] free).cycle < 99000000 + 1000 * (port [] free).winDesc 3 0x0A) := by
  simp only [Device.accepts]
  and_intros <;> decide +kernel

theorem meets_SerialPortsServe_ssp :
    let d := (at_ [servicePort .ssp, (okey 0x1250 0x05, 1)]).dev
    let e := (with_ (sspSelected true) [servicePort .ssp, (okey 0x1250 0x05, 1)]).dev
    let site := BitVec.ofNat 16 (siteIx 127)
    d.boot.held = false ∧ d.o 0x1250 0x05 ≠ 0 ∧ (at_ []).dev.o 0x1250 0x05 = 0 ∧
    (sspHeaderError 1 (sspOf 1 site 9 0 4 []) = none ∧ sspHeaderError 1 (sspOf 2 site 9 0 4 []) = some sspHeaderCrc ∧
      sspHeaderError 5 (sspOf 5 0 0 0 7 []) = some sspLength ∧ sspHeaderError 5 (sspOf 5 0 0 0 8 []) = none ∧
      sspHeaderError 1 (sspOf 1 site 9 0 1024 []) = none ∧ sspHeaderError 1 (sspOf 1 site 9 0 1025 []) = some sspLength) ∧
    (e.readKind .ssp (siteIx 127) 9 = none ∧ e.readKind .ssp (siteIx 127) 0x0F = some 1 ∧ indexDefined (siteIx 127) = true ∧
      objKind (siteIx 127) 9 ≠ .undefined) ∧
    ((sspOf 2 site 9 9 4 [1, 2]).data.length < 4 ∧ crc8 ([1, 2, 3, 4].map (BitVec.ofNat 8)) ≠ 0) ∧
    (objSize (siteIx 127) 9 = 4 ∧ e.accessKind .ssp true (siteIx 127) 3 = some 1) ∧
    d.accepts .ssp (siteIx 127) 9 64 false := by
  simp only [Device.accepts]
  and_intros <;> decide +kernel

theorem meets_SerialPortsServe_selected :
    let d := (at_ [servicePort .ssp, (okey 0x1250 0x05, 1)]).dev
    (d.sspSelected false).accessKind .ssp true (siteIx 127) 9 = none ∧ (d.sspSelected true).accessKind .ssp true (siteIx 127) 9 = none ∧
    crc8 (sspHeader 6 { sspOf 6 0 0 0 0 [] with hcrc := 0 }) ≠ 0 ∧ crc8 (sspHeader 6 (sspOf 6 0 0 0 0 [])) = (sspOf 6 0 0 0 0 []).hcrc.toNat := by
  decide +kernel

/-! ## Premises: calibration, power, the machine -/

theorem meets_CalibrationsRun :
    let d := (at_ []).dev
    let tile (s : Nat) (c : Cal) : Device := (with_ (fun e => e.setCal 7 c) ([(okey 0x1417 0x01, s), (okey 0x1317 0x0B, 0)] ++ supervised)).dev
    let run (i : Fin 137) (x : Coefs) : CalUnit := ⟨i, some x⟩
    let a : Coefs := ⟨5, -6, [1000, -7], [0], [0]⟩
    let b : Coefs := ⟨9, -9, [0, 993], [50000], [100]⟩
    let c : Coefs := ⟨10, -9, [1001], [50001], [100]⟩
    d.boot.held = false ∧ (tile 1 Cal.init).boot.held = false ∧
    (d.accepts .ssp 0x1400 0x05 0x03FF false ∧ bitf 0x03FF 8 2 ≠ 0 ∧ d.accepts .ssp 0x1400 0x05 0x00FF false ∧ bitf 0x00FF 8 2 = 0) ∧
    ((tile 1 Cal.init).calMayStart 7 = true ∧ (∀ n ∈ tileChans 7, (tile 1 Cal.init).tmuBusy n = false) ∧ d.calMayStart 7 = false) ∧
    (d.calState 7 ≠ 2 ∧ d.calState 7 ≠ 3 ∧ (tile 2 Cal.init).calState 7 = 2 ∧ (tile 3 Cal.init).calState 7 = 3) ∧
    (bit ((tile 2 { Cal.init with kinds := 2 }).calOf 7).kinds 1 = true ∧ (1 ∈ calUnits 1 ∧ 1 ∉ calUnits 2)) ∧
    (unitRejected [run 0 a, run 1 a] [run 0 b, run 1 b] false 1 = false ∧ unitOf [run 1 a] 1 = some a ∧ meanCoefs a b = ⟨7, -7, [500, 493], [25000], [50]⟩ ∧
      unitRejected [run 0 a, run 1 a] [run 0 b, ⟨1, none⟩] false 1 = true ∧ unitRejected [run 0 a, run 1 a] [run 0 b, run 1 c] false 1 = true ∧
      unitRejected [run 0 a, run 1 a] [run 0 c, run 1 b] false 1 = true ∧ unitRejected [run 136 a] [run 136 b] false 136 = false ∧
      unitRejected [run 65 a] [run 65 c] false 65 = true ∧ unitRejected [run 65 a] [run 65 b] true 65 = true) ∧
    ((calUnits 3).length = 137 ∧ (tile 2 Cal.init).runUnits 7 < (1 : BitVec 8).toNat ∧ (tile 3 Cal.init).o 0x1417 0x0A ≤ 137 ∧
      (137 : BitVec 8).toNat ≤ (tile 3 { Cal.init with kinds := 3, checked := some true }).runUnits 7 ∧
      65 = (tile 2 { Cal.init with kinds := 3, checked := some false }).runUnits 7) ∧
    ((tile 2 { Cal.init with kinds := 2 }).levelRun 7 = true ∧ (tile 2 { Cal.init with kinds := 2 }).calState 7 ≠ 4 ∧
      ((tile 2 { Cal.init with kinds := 2 }).calOf 7).checked = none ∧ ((tile 2 { Cal.init with kinds := 2 }).calOf 7).path = [] ∧
      ((tile 2 { Cal.init with kinds := 2 }).calOf 7).pathUsed = [] ∧ (tile 2 { Cal.init with kinds := 3 }).levelRun 7 = false ∧
      ((tile 2 { Cal.init with kinds := 3 }).w 0x1417 0x0A 65).levelRun 7 = true ∧
      ((tile 3 { Cal.init with kinds := 3 }).w 0x1417 0x0A 201).levelRun 7 = false ∧
      ((tile 3 { Cal.init with kinds := 3 }).w 0x1417 0x0A 202).levelRun 7 = true ∧ d.levelRun 7 = false) ∧
    ((tile 4 Cal.init).calState 7 = 4 ∧ ((tile 3 { Cal.init with kinds := 2, checked := some false }).calOf 7).checked ≠ none) ∧
    (referencesOk 247500 990000 = true ∧ referencesOk 252500 1010000 = true ∧ referencesOk 252501 1010000 = false ∧ referencesOk 250000 989999 = false ∧
      referencesOk (-1) 1000000 = false) ∧
    ((d.calOf 7).retryAt = none ∧ ((tile 0 { Cal.init with retryAt := some 100000000 }).calOf 7).retryAt = some 100000000 ∧
      100000000 ≤ d.cycle ∧ d.cycle < 100000001) ∧
    (d.o 0x1400 0x01 = 1 ∧ ((tile 0 Cal.init).calOf 7).suspended = false ∧ (tile 0 Cal.init).calState 7 < 2) := by
  simp only [Device.accepts]
  and_intros <;> decide +kernel

theorem meets_PowerAndHeat :
    let d := (at_ []).dev
    let moving (l : List (Nat × Nat)) (m : Nat) : Device := (with_ (fun e => { e with power := { e.power with moving := [(7, m)], lastAccess := [(7, 90000001)] } }) l).dev
    let heat (v : Nat) : Device := (at_ [servicePort .ssp, (okey 0x1200 0x01, 7), (okey 0x1300 0x12, v)]).dev
    let cool (v : Nat) : Device := (at_ ([servicePort .ssp, (okey 0x1200 0x01, 7), (okey 0x1300 0x12, v)] ++ (List.range 8).map fun t => (okey (0x1310 + t) 0x0B, 0))).dev
    let hot := { (heat 1).put (sensorKey 0 0) 1999 with power := { PowerState.init with history := [(99000000, 1998)] } }
    let readings : List Conversion := List.replicate 8 ⟨1887, true⟩
    d.boot.held = false ∧ Cells.read 0 7 d.power.moving = 0 ∧
    (Cells.read 0 7 (moving [] 1).power.moving ≠ 0 ∧ (moving [] 1).o 0x1300 0x12 ≠ 2 ∧ (moving [] 1).retraining 7 = false ∧ (moving [] 1).sites.woken = []) ∧
    ((moving [] 6).tileGranted 7 = false ∧ { moving [] 6 with mem := { MemState.init with grants := [⟨3, 0, [(28, 1)], true, false⟩] } }.tileGranted 7 = true ∧
      ((moving [] 5).w 0x1327 0x02 5).powerState 7 = 5 ∧
      { moving [] 5 with mem := { MemState.init with trainShort := 0x8000 } }.retraining 7 = true) ∧
    ((moving [] 6).powerState 7 < 4 ∧ 5 ≤ Cells.read 0 7 (moving [] 6).power.moving ∧ (moving [] 3).powerState 7 < 3) ∧
    (Cells.read 0 7 d.power.lastAccess = 0 ∧ 90000001 - 1 + 10000000 ≤ (moving [] 1).cycle ∧ (moving [] 1).accessWaits 7 = false ∧
      { moving [] 1 with ring := { RingState.init with ingress := [⟨.up, 0, 0, quadAddr 112 0, [0], false⟩] } }.accessWaits 7 = true) ∧
    (Device.reset.sensorsTrimmed = false ∧ (heat 0).sensorsTrimmed = true ∧ (heat 0).boot.released = 1 ∧ readings.length = 8 ∧
      (heat 0).o 0x1317 0x0C = 0 ∧ (heat 0).act 0x1300 0x07 = 0 ∧ (1887 : Int) < 16 * ((heat 0).act 0x1300 0x03 : Int) ∧
      (heat 0).sameCount 7 7 < 63 ∧ (setSame 7 7 62 (heat 0)).sameCount 7 7 = 62) ∧
    ((heat 1).o 0x1300 0x12 ≠ 0 ∧ (heat 1).sensorFault 7 7 = false) ∧
    ((heat 0).hottestValid = none ∧ hot.hottestValid = some 1999 ∧ predicted 1999 (earlier hot.cycle hot.power.history) = 1000 ∧
      hot.o 0x1300 0x12 = 1 ∧ (heat 0).o 0x1300 0x12 ≠ 1) ∧
    ((heat 1).dps.rank = none ∧ (∀ k < 64, (heat 1).dpsConnected k = false) ∧ (heat 1).sites.seq = []) ∧
    ((heat 2).accepts .ssp 0x1300 0x14 1 false ∧ reArmResult 0 (heat 2) = 3 ∧ reArmResult 0 (cool 2) = 1 ∧ reArmResult 0 (cool 0) = 2 ∧
      reArmResult (2 ^ 63) (cool 2) = 4) ∧
    (setBit (d.o 0x1390 0x08) 6 false = 0 ∧ setBit ((at_ [(okey 0x1390 0x08, 3)]).dev.o 0x1390 0x08) 0 false ≠ 0) := by
  simp only [Device.accepts]
  and_intros <;> decide +kernel

theorem meets_ToleranceAllowsDeepestState :
    let st := at_ ([(okey 0x1647 0x01, 1), (okey 0x1317 0x0B, 0)] ++ channelAt 14 3)
    st.running ∧ (∀ v ∈ [0, 1, 2, 59, 60, 1999, 2000, 119999, 120000, 0xFFFFFFFF], st.dev.writeKind .ssp 0x1327 0x01 v false = none) ∧
    st.dev.floorConditions 7 = 0 ∧ st.dev.throttled 7 = false ∧ st.dev.dormantHeld 7 = false := by
  simp only [State.running]
  and_intros <;> decide +kernel

theorem meets_ResetAndSteps :
    State.reset.running ∧ { Device.reset with boot := { BootState.init with held := true } }.boot.held = true ∧
    State.reset.pending.head? ≠ some .porstN ∧ ({ State.reset with pending := [.porstNAssertion] }.pending.head? = some .porstNAssertion) ∧
    ({ State.reset with pending := [.porstN] }.pending.head? = some .porstN) := by
  simp only [State.running]
  and_intros <;> decide +kernel

theorem meets_InstructionWordsRoundTrip :
    word0.poisoned = false ∧ (word0.a ≠ 1 ∧ word0.a ≠ 2) ∧ (word0.b ≠ 1 ∧ word0.b ≠ 2) ∧
    ((1 : BitVec 8).getLsbD 0 = true ∧ (2 : BitVec 8).getLsbD 0 = false ∧ (2 : BitVec 8).getLsbD 1 = true ∧
      (4 : BitVec 8).getLsbD 1 = false ∧ (4 : BitVec 8).getLsbD 2 = true ∧ (8 : BitVec 8).getLsbD 2 = false) ∧
    ((0 : BitVec 8).toNat = 0 ∧ 15 < (16 : BitVec 8).toNat) := by
  and_intros <;> decide +kernel


theorem meets_StoresStayCanonical : State.reset.dev.objsWf = true ∧ State.reset.dev.sramWf = true ∧ State.reset.dev.sdramWf = true ∧
    ∃ t, step { State.reset with pending := [.refclkReturn] } = .next t :=
  ⟨by decide +kernel, by decide +kernel, by decide +kernel, _, rfl⟩

/-! ## Ill-formed terms, one for each check of `Instr.wf` -/

/-- A datagram of four bytes whose length field says 4. -/
def datagram4 : Datagram :=
  { typ := 1, tag := 0, addr := 0, mode := 0, flags := 0, len := 4, target := 0, data := [0, 0, 0, 0], wc := 0, sig := 0 }

/-- The same with its last byte missing. -/
def shortDatagram : Datagram := { datagram4 with data := [0, 0, 0] }

/-- A frame that announces one byte and carries none. -/
def shortFrame : SspFrame := { clk := false, ix := 0x1000, sub := 1, last := 1, len := 1, hcrc := 0, data := [], dcrc := 0 }

/-- A word with a reserved bit set. -/
def reservedWord : VWord := { word0 with rsv := 1 }

theorem wellFormed_accepts :
    ([.drd datagram4, .vec 0 word0, .jmpArm 0 { word0 with a := 1 }, .signalClear 3 { word0 with b := 2 },
      .captLog 0 { word0 with a := 8 }, .illegalOpcode 0 16 word0, .sensorConversion 0 (List.replicate 8 ⟨0, false⟩), .sensorSelfTest 0 (List.replicate 8 49), .sspDiscard (.opcode 6 shortFrame),
      .calibrationRequest .ssp 1023, .sspStatus { shortFrame with data := [0] }] : List Instr).all Instr.wf = true := by
  decide +kernel

theorem illFormed_datagrams :
    ([.drd shortDatagram, .dwr shortDatagram, .drr shortDatagram, .drw shortDatagram, .bwr .up shortDatagram, .brq shortDatagram,
      .brd shortDatagram, .evt shortDatagram, .sync shortDatagram 0, .sync datagram4 0, .trd shortDatagram] : List Instr).any
      Instr.wf = false := by
  decide +kernel

theorem illFormed_words :
    ([.vec 0 reservedWord, .rpt 0 reservedWord, .loop 0 reservedWord, .endl 0 reservedWord, .call 0 reservedWord,
      .ret 0 reservedWord, .jmp 0 reservedWord, .jmpArm 0 { reservedWord with a := 1 }, .jmpDisarm 0 { reservedWord with a := 2 },
      .bif 0 reservedWord, .matchBlock 0 reservedWord, .tset 0 reservedWord, .lset 0 reservedWord, .wait 0 reservedWord,
      .signalPulse 0 reservedWord, .signalSet 0 { reservedWord with b := 1 }, .signalClear 0 { reservedWord with b := 2 },
      .captArm 0 { reservedWord with a := 1 }, .captAcq 0 { reservedWord with a := 2 }, .captFwclr 0 { reservedWord with a := 4 },
      .captLog 0 { reservedWord with a := 8 }, .halt 0 reservedWord] : List Instr).any Instr.wf = false := by
  decide +kernel

theorem illFormed_forms :
    ([.jmp 0 { word0 with a := 3 }, .jmpArm 0 word0, .jmpDisarm 0 word0, .signalPulse 0 { word0 with b := 3 }, .signalSet 0 word0,
      .signalClear 0 word0, .captArm 0 word0, .captAcq 0 { word0 with a := 1 }, .captFwclr 0 { word0 with a := 3 },
      .captLog 0 { word0 with a := 7 }, .illegalOpcode 0 1 word0, .illegalOpcode 0 15 word0] : List Instr).any Instr.wf = false := by
  decide +kernel

theorem illFormed_lengths :
    ([.lemileFrame .up (List.replicate 65537 0), .objectWrite .ssp 0x1000 1 (List.replicate 1025 0), .roleResponse .ssp [],
      .dpsUpdateTick 0 0 [], .monitorTick 0 [], .sensorConversion 0 [], .sensorSelfTest 0 [], .sspDiscard (.opcode 5 shortFrame), .windowWrite 0 0 (List.replicate 65537 0), .pageFill 0 0 [],
      .calibrationRequest .ssp 1024, .sspRead shortFrame, .sspWrite shortFrame, .sspRangeRead shortFrame,
      .sspRangeWrite shortFrame, .sspStatus shortFrame] : List Instr).any Instr.wf = false := by
  decide +kernel

/-! ## Instruction words, written out from R123 and R124 -/

/-- The eight words of the worked example of 05_vector_sequencer.md ("one pattern, encoded"). -/
theorem words_workedExample :
    commandOfWord 12 0x00000000_00000000_00000000_00_07_00_0A#128 = .tset 12 { word0 with a := 7 } ∧
    commandOfWord 12 0x00000000_00000004_00000000_00_82_02_03#128 = .loop 12 { word0 with res := true, a := 0x82, t := 4 } ∧
    commandOfWord 12 0x00000000_00000000_00000018_00_00_04_01#128 = .vec 12 { word0 with ssm := true, n := 24 } ∧
    commandOfWord 12 0x00000000_00000002_00000000_00_00_00_04#128 = .endl 12 { word0 with t := 2 } ∧
    commandOfWord 12 0x00000010_00000000_000000C8_05_01_01_09#128 = .matchBlock 12 { word0 with mode := true, a := 1, b := 5, n := 200, x := 16 } ∧
    commandOfWord 12 0x00000000_00000007_00000000_01_01_00_08#128 = .bif 12 { word0 with a := 1, b := 1, t := 7 } ∧
    commandOfWord 12 0x00000000_00000000_00000000_00_00_00_0F#128 = .halt 12 word0 ∧
    commandOfWord 12 0x00000000_00000000_00000000_00_21_00_0F#128 = .halt 12 { word0 with a := 0x21 } := by
  and_intros <;> decide +kernel

/-- The other opcodes and forms of R124, their fields at the bits of R123. -/
theorem words_otherForms :
    commandOfWord 12 0x00000040_00000000_00000009_00_0B_00_02#128 = .rpt 12 { word0 with a := 0x0B, n := 9, x := 0x40 } ∧
    commandOfWord 12 0x00000000_00000005_00000000_00_00_02_05#128 = .call 12 { word0 with res := true, t := 5 } ∧
    commandOfWord 12 0x00000000_00000000_00000000_00_00_04_06#128 = .ret 12 { word0 with ssm := true } ∧
    commandOfWord 12 0x00000000_00000003_00000000_00_00_00_07#128 = .jmp 12 { word0 with t := 3 } ∧
    commandOfWord 12 0x00000000_00000003_00000000_09_01_01_07#128 = .jmpArm 12 { word0 with mode := true, a := 1, b := 9, t := 3 } ∧
    commandOfWord 12 0x00000000_00000000_00000000_00_02_00_07#128 = .jmpDisarm 12 { word0 with a := 2 } ∧
    commandOfWord 12 0x00000000_00000002_00000000_03_10_09_08#128 = .bif 12 { word0 with mode := true, pred := true, a := 0x10, b := 3, t := 2 } ∧
    commandOfWord 12 0x00000000_00000000_00000000_00_0F_00_0B#128 = .lset 12 { word0 with a := 15 } ∧
    commandOfWord 12 0x00000080_00000000_12345678_02_04_00_0C#128 = .wait 12 { word0 with a := 4, b := 2, n := 0x12345678, x := 0x80 } ∧
    commandOfWord 12 0x00000000_00000000_00000000_00_1F_00_0D#128 = .signalPulse 12 { word0 with a := 31 } ∧
    commandOfWord 12 0x00000000_00000000_00000000_01_1F_00_0D#128 = .signalSet 12 { word0 with a := 31, b := 1 } ∧
    commandOfWord 12 0x00000000_00000000_00000000_02_1F_00_0D#128 = .signalClear 12 { word0 with a := 31, b := 2 } ∧
    commandOfWord 12 0x00000000_00000000_00000000_00_07_00_0E#128 = .captArm 12 { word0 with a := 7 } ∧
    commandOfWord 12 0x00000000_00000000_00000000_00_06_00_0E#128 = .captAcq 12 { word0 with a := 6 } ∧
    commandOfWord 12 0x00000000_00000000_00000000_00_04_00_0E#128 = .captFwclr 12 { word0 with a := 4 } ∧
    commandOfWord 12 0x00000000_00000000_00000000_00_10_00_0E#128 = .captLog 12 { word0 with a := 0x10 } ∧
    commandOfWord 12 0x00000000_00000000_00000000_00_00_00_10#128 = .illegalOpcode 12 0x10 word0 ∧
    commandOfWord 12 0x00000000_00000000_00000000_00_00_F0_00#128 = .illegalOpcode 12 0 { word0 with rsv := 15 } := by
  and_intros <;> decide +kernel

/-! ## Values of the spec's worked examples -/

/-- The Peony section of the worked example after R162: 80 bytes of block VEC 16 of quad Q075. -/
def vec16Section : List Byte :=
  [0x10, 0x00, 0x00, 0x00, 0xD2, 0x08, 0x02, 0x00, 0x02, 0x00, 0x00, 0x00, 0x02, 0x00, 0x00, 0x00,
   0x08, 0x00, 0x00, 0x00, 0x00, 0x00, 0x00, 0x00, 0x02, 0x00, 0x00, 0x00, 0x01, 0x00, 0x00, 0x00,
   0xA5, 0x0F, 0x00, 0x00, 0x00, 0x00, 0x00, 0x00, 0x00, 0xFF, 0x00, 0x00, 0x00, 0x00, 0x00, 0x00,
   0x0A, 0x00, 0x06, 0x00, 0x06, 0x00, 0x04, 0x00, 0x03, 0x11, 0x00, 0x00, 0x00, 0x00, 0x00, 0x00,
   0x09, 0x00, 0x00, 0x20, 0x00, 0x00, 0x00, 0x00, 0x00, 0x00, 0x00, 0x00, 0x00, 0x00, 0x00, 0x00]

/-- The two dictionary entries it uses, lane 3: 0x49B49B and 0xB6DB6D. -/
def vec16Dictionary (e : Nat) : Nat := if e = 0x03 then 0x49B49B * 2 ^ 72 else if e = 0x11 then 0xB6DB6D * 2 ^ 72 else 0

theorem test_vec16_section :
    peonyError vec16Section 16 80 = none ∧ sectionLen (peonyHeader vec16Section) = 80 ∧
    channelStates vec16Section (peonyHeader vec16Section) vec16Dictionary 0 = [1, 0, 1, 0, 0, 1, 0, 1, 1, 1, 1, 1, 0, 0, 0, 0] ∧
    channelStates vec16Section (peonyHeader vec16Section) vec16Dictionary 1 = [2, 2, 2, 2, 2, 2, 2, 2, 3, 3, 3, 3, 3, 3, 3, 3] ∧
    channelStates vec16Section (peonyHeader vec16Section) vec16Dictionary 2 = List.replicate 10 6 ++ List.replicate 6 4 ∧
    channelStates vec16Section (peonyHeader vec16Section) vec16Dictionary 3 = [3, 3, 2, 2, 3, 3, 2, 2, 5, 5, 5, 5, 5, 5, 5, 5] ∧
    (peonyVectors vec16Section vec16Dictionary).map QVector.mask = List.replicate 9 0 ++ [2] ++ List.replicate 6 0 := by
  and_intros <;> decide +kernel

/-- CL13's first source (01), CH301's alarm source (R89), S012's fail-limit source with host cluster CL10 (11), and the
calibration source of T3 (14). -/
theorem test_event_sources :
    clusterSource 13 0 = 140 ∧ clusterSource (301 / 16) 2 = 170 ∧ clusterSource 10 1 = 121 ∧ tileSource 3 5 = 157 := by
  decide

/-- The largest swing at 5,000 Mbit/s (R67): 175,625 codes of 10 µV. -/
theorem test_largest_swing : largestSwing 5000 = 175625 ∧ largestSwing 1600 = 350000 ∧ largestSwing 8000 = 120000 := by decide

/-- The check value of CRC-32 (IEEE 802.3) over the digits 1 to 9, which the polynomial of R150 names. -/
theorem test_crc32 : crc32 [0x31, 0x32, 0x33, 0x34, 0x35, 0x36, 0x37, 0x38, 0x39] = 0xCBF43926 := by decide +kernel

/-- HMAC-SHA-256 (R58, FIPS 198-1) under a key of zeros; the number is another implementation's. -/
theorem test_hmac :
    ofBE (hmacSha256 (List.replicate 32 0) (List.replicate 16 0 ++ [3, 1] ++ List.replicate 8 0)) =
      0x84d8b77f2e196985d1edf744981df0613b10335397279f43fe9d6ea287ec4d0d := by
  decide +kernel


end Sys2Proof.Tests
end

section
/-!
SUPPORT. The rules of a TMU's results (R111, R115 to R117): what offering a result to the acquisition unit and to a measuring step
leaves alone, what the written result reads, and what the state object shows once the unit has settled.
-/
namespace Sys2Proof.Machine.Device

variable (d : Device)

/-! ## Reading through an update that keeps the register file or the pins -/

theorem o_of_objs_eq {d e : Device} (h : e.objs = d.objs) (ix sub : Nat) : e.o ix sub = d.o ix sub := get_congr h _

theorem tmuOf_of_pins_eq {d e : Device} (h : e.pins = d.pins) (n : Nat) : e.tmuOf n = d.tmuOf n := by
  simp only [tmuOf, h]

/-! ## The takers of a result (R195, R235) -/

theorem takeSample_keeps {β : Type} (p : Device → β) (hp : ∀ e s x, p (setFlow e s x) = p e) (v : Int) (s : Nat) :
    p (takeSample v s d) = p d := by
  unfold takeSample
  dsimp only
  split
  · rfl
  · exact hp ..

/-- A result reaches measuring steps through their flows alone. -/
theorem tmuSampled_keeps {β : Type} (p : Device → β) (hp : ∀ e s x, p (setFlow e s x) = p e) (n r : Nat) :
    p (tmuSampled n r d) = p d := by
  unfold tmuSampled
  dsimp only
  split
  · exact each_keep p (fun _ _ => hp ..) _ d
  · exact each_keep p (fun s e => takeSample_keeps e p hp _ s) _ d

@[simp] theorem tmuSampled_objs (n r : Nat) : (tmuSampled n r d).objs = d.objs :=
  tmuSampled_keeps d Device.objs (fun _ _ _ => rfl) n r
@[simp] theorem tmuSampled_pins (n r : Nat) : (tmuSampled n r d).pins = d.pins :=
  tmuSampled_keeps d Device.pins (fun _ _ _ => rfl) n r

@[simp] theorem offerTmu_objs (n r : Nat) : (offerTmu n r d).objs = d.objs := by
  unfold offerTmu
  dsimp only
  split <;> rfl
@[simp] theorem offerTmu_pins (n r : Nat) : (offerTmu n r d).pins = d.pins := by
  unfold offerTmu
  dsimp only
  split <;> rfl

/-! ## The written result (R117) -/

/-- Objects of one channel are told apart by their subindex. -/
theorem okey_chan_ne {n sub sub' : Nat} (h : sub ≠ sub') : okey (chanIx n) sub ≠ okey (chanIx n) sub' :=
  fun e => h (Nat.add_left_cancel e)

/-- The register file after a result, before it is offered: the takers leave it alone. -/
theorem o_tmuResultWritten (n r freq ix sub : Nat) :
    (tmuResultWritten n r freq d).o ix sub =
      (((d.w (chanIx n) 0x2C r).w (chanIx n) 0x2F freq).addWrap (chanIx n) 0x2D 4 1).o ix sub :=
  o_of_objs_eq (by simp [tmuResultWritten]) ix sub

@[simp] theorem tmuResultWritten_record (n r freq : Nat) : (tmuResultWritten n r freq d).o (chanIx n) 0x2C = r := by
  rw [o_tmuResultWritten, addWrap, o_w_ne _ (okey_chan_ne (by decide)), o_w_ne _ (okey_chan_ne (by decide)), o_w]

@[simp] theorem tmuResultWritten_count (n r freq : Nat) :
    (tmuResultWritten n r freq d).o (chanIx n) 0x2D = (d.o (chanIx n) 0x2D + 1) % 2 ^ 32 := by
  rw [o_tmuResultWritten, addWrap, o_w, o_w_ne _ (okey_chan_ne (by decide)), o_w_ne _ (okey_chan_ne (by decide)), wrapAdd]

@[simp] theorem tmuOf_tmuResultWritten (n r freq : Nat) :
    (tmuResultWritten n r freq d).tmuOf n = { d.tmuOf n with seq := (d.tmuOf n).seq + 1 } :=
  (tmuOf_of_pins_eq (d := d.setTmu n { d.tmuOf n with seq := (d.tmuOf n).seq + 1 })
    (by simp [tmuResultWritten, setTmu, tmuOf]) n).trans (tmuOf_setTmu ..)

/-! ## The fields of a record (R117) -/

theorem fld_tmuRecord_status {status mode seq interval edges coarse startFine stopFine : Nat} (hs : status < 256) :
    fld (tmuRecord status mode seq interval edges coarse startFine stopFine) 0 1 = status := by
  simp only [fld, tmuRecord]
  omega

theorem fld_tmuRecord_interval {status mode seq interval edges coarse startFine stopFine : Nat} (hs : status < 256)
    (hm : mode < 256) :
    fld (tmuRecord status mode seq interval edges coarse startFine stopFine) 8 8 = interval % 2 ^ 64 := by
  simp only [fld, tmuRecord]
  omega

/-! ## A result without a stop edge (R111) -/

/-- TMU `n` has reported a result with `status` and interval 0, and counted it. -/
def TmuReported (n : Nat) (d e : Device) (status : Nat) : Prop :=
  fld (e.o (chanIx n) 0x2C) 0 1 = status ∧ fld (e.o (chanIx n) 0x2C) 8 8 = 0 ∧
  e.o (chanIx n) 0x2D = (d.o (chanIx n) 0x2D + 1) % 2 ^ 32

theorem tmuNoStop_reported {n : Nat} {m : TmuDone} (hs : m.status < 256) (hm : (d.tmuOf n).mode < 256) :
    TmuReported n d (tmuNoStop n m d) m.status := by
  unfold tmuNoStop
  refine ⟨?_, ?_, ?_⟩
  · rw [tmuResultWritten_record, fld_tmuRecord_status hs]
  · rw [tmuResultWritten_record, fld_tmuRecord_interval hs hm]
    rfl
  · exact tmuResultWritten_count ..

@[simp] theorem tmuOf_tmuNoStop (n : Nat) (m : TmuDone) :
    (tmuNoStop n m d).tmuOf n = { d.tmuOf n with seq := (d.tmuOf n).seq + 1 } := tmuOf_tmuResultWritten ..

/-! ## The state object (R115, R117) -/

/-- The state that a TMU in working state `x` shows. -/
def tmuShown (x : Tmu) : Nat :=
  if x.start.isSome then tmuStarted else if x.converting ≠ [] then tmuConverting
  else if x.left = 0 then tmuDone else tmuArmed

/-- Settling the tile of a channel leaves the channel's objects alone. -/
theorem settleTile_o_chan (n : Nat) {sub : Nat} (h : sub < 256) :
    (settleTile (n / 64) d).o (chanIx n) sub = d.o (chanIx n) sub := by
  refine (settleTile_settled (ks := []) (List.mem_singleton.2 rfl)).2 _ ?_
  simp only [List.nil_append, List.flatMap_singleton, settleKeys, okey, chanIx, List.mem_cons, List.not_mem_nil, or_false]
  omega

@[simp] theorem settleTile_pins (t : Nat) : (settleTile t d).pins = d.pins := by
  rw [(settleTile_settled (d := d) (ks := []) (List.mem_singleton.2 rfl)).1]

theorem batchDone_o (n : Nat) {sub : Nat} (h : sub < 256) :
    (batchDone n d).o (chanIx n) sub = (setTmuState n tmuDone d).o (chanIx n) sub :=
  (settleTile_o_chan _ n h).trans (o_of_objs_eq (raise_objs ..) ..)

@[simp] theorem batchDone_pins (n : Nat) : (batchDone n d).pins = d.pins := by simp [batchDone, setTmuState]

/-- Settling writes the state that the unit shows; of the channel's objects it touches no other. -/
theorem tmuSettle_o (n : Nat) {sub : Nat} (h : sub < 256) :
    (tmuSettle n d).o (chanIx n) sub = (setTmuState n (tmuShown (d.tmuOf n)) d).o (chanIx n) sub := by
  unfold tmuSettle tmuShown
  simp only [Bool.not_eq_true', List.isEmpty_eq_false_iff]
  split_ifs
  · rfl
  · rfl
  · exact batchDone_o d n h
  · rfl

theorem tmuSettle_o_ne (n : Nat) {sub : Nat} (h : sub < 256) (hne : sub ≠ 0x2B) :
    (tmuSettle n d).o (chanIx n) sub = d.o (chanIx n) sub :=
  (tmuSettle_o d n h).trans (o_w_ne d (okey_chan_ne hne) _)

@[simp] theorem tmuSettle_pins (n : Nat) : (tmuSettle n d).pins = d.pins := by
  unfold tmuSettle
  dsimp only
  split_ifs
  · rfl
  · rfl
  · exact batchDone_pins d n
  · rfl

@[simp] theorem tmuOf_tmuSettle (n k : Nat) : (tmuSettle n d).tmuOf k = d.tmuOf k := tmuOf_of_pins_eq (tmuSettle_pins d n) k

theorem tmuState_tmuSettle (n : Nat) : (tmuSettle n d).tmuState n = tmuShown ((tmuSettle n d).tmuOf n) := by
  rw [tmuOf_tmuSettle]
  exact (tmuSettle_o d n (by decide)).trans (o_w ..)

/-- What is reported before a settle still reads after it. -/
theorem TmuReported.settle {n status : Nat} {d e : Device} (h : TmuReported n d e status) :
    TmuReported n d (tmuSettle n e) status := by
  unfold TmuReported
  rw [tmuSettle_o_ne e n (by decide) (by decide), tmuSettle_o_ne e n (by decide) (by decide)]
  exact h

end Sys2Proof.Machine.Device
end

section
/-!
SUPPORT. The end of an interval measurement that has no stop edge, and the completion of its conversion (R111, R117).
-/
namespace Sys2Proof.Machine.Device

variable {d : Device} {n status : Nat}

/-- The measurement under way of TMU `n` in `d` is over in `e`, with `status`: its result is reported where none converts, and else
stands behind those that do. -/
def TmuOver (n : Nat) (d e : Device) (status : Nat) : Prop :=
  e.tmuState n = tmuShown (e.tmuOf n) ∧ (e.tmuOf n).start = none ∧ (e.tmuOf n).left = (d.tmuOf n).left - 1 ∧
  ((d.tmuOf n).converting = [] → (e.tmuOf n).converting = [] ∧ TmuReported n d e status) ∧
  ((d.tmuOf n).converting ≠ [] → e.o (chanIx n) 0x2C = d.o (chanIx n) 0x2C ∧ e.o (chanIx n) 0x2D = d.o (chanIx n) 0x2D ∧
    (e.tmuOf n).converting = (d.tmuOf n).converting ++ [d.underWay n status])

/-- Where results still convert, the measurement that ends joins them. -/
theorem tmuEnded_settled_over (h : (d.tmuOf n).converting ≠ []) (cycle : Nat) :
    TmuOver n d (tmuSettle n (tmuEnded n status cycle d)) status := by
  refine ⟨tmuState_tmuSettle .., ?_, ?_, fun he => absurd he h, fun _ => ⟨?_, ?_, ?_⟩⟩
  · simp [tmuEnded]
  · simp [tmuEnded]
  · exact tmuSettle_o_ne _ n (by decide) (by decide)
  · exact tmuSettle_o_ne _ n (by decide) (by decide)
  · simp [tmuEnded]

/-- TMU `n` whose measurement has ended with nothing left to convert. -/
def endedAlone (n status cycle : Nat) (d : Device) : Device :=
  (tmuEnded n status cycle d).setTmu n { (tmuEnded n status cycle d).tmuOf n with converting := [] }

/-- Where none converts, the result of the measurement that ends is reported at once. -/
theorem endedAlone_reported_over (h : (d.tmuOf n).converting = []) (hs : status < 256) (hm : (d.tmuOf n).mode < 256)
    (cycle : Nat) :
    TmuOver n d (tmuSettle n (tmuNoStop n (d.underWay n status) (endedAlone n status cycle d))) status := by
  have hmode : ((endedAlone n status cycle d).tmuOf n).mode < 256 := by simpa [endedAlone, tmuEnded] using hm
  refine ⟨tmuState_tmuSettle .., ?_, ?_, fun _ => ⟨?_, ?_⟩, fun hne => absurd h hne⟩
  · simp [endedAlone, tmuEnded]
  · simp [endedAlone, tmuEnded]
  · simp [endedAlone, tmuEnded]
  · exact (tmuNoStop_reported (endedAlone n status cycle d) hs hmode).settle

/-- An interval measurement with no stop edge is over once the limit has passed since its start edge. -/
theorem tmuExpire_over {b : Nat × Nat} {limit : Nat} (hm : (d.tmuOf n).mode ≤ 1) (hb : (d.tmuOf n).start = some b)
    (hl : limit ≠ 0) (hc : b.1 + limit ≤ d.cycle) (hs : status < 256) :
    TmuOver n d (tmuExpire n status limit d) status := by
  have hguard : (d.tmuOf n).mode ≠ 2 ∧ limit ≠ 0 ∧ b.1 + limit ≤ d.cycle := ⟨by omega, hl, hc⟩
  simp only [tmuExpire, hb, if_pos hguard, List.isEmpty_iff]
  split
  · next h => exact endedAlone_reported_over h hs (by omega) _
  · next h => exact tmuEnded_settled_over h _

/-- Before its limit, and with no limit, a measurement goes on. -/
theorem tmuExpire_before {b : Nat × Nat} {limit : Nat} (hb : (d.tmuOf n).start = some b)
    (h : limit = 0 ∨ d.cycle < b.1 + limit) : tmuExpire n status limit d = d := by
  simp only [tmuExpire, hb]
  exact if_neg fun hguard => by omega

/-- The conversion of a measurement that had no stop edge reports it, and the others go on. -/
theorem tmuResultOp_noStop {m : TmuDone} {rest : List TmuDone} (hc : (d.tmuOf n).converting = m :: rest)
    (hs : m.status = 1 ∨ m.status = 2) (hm : (d.tmuOf n).mode < 256) :
    TmuReported n d (tmuResultOp n d) m.status ∧
    (tmuResultOp n d).tmuState n = tmuShown ((tmuResultOp n d).tmuOf n) ∧
    ((tmuResultOp n d).tmuOf n).converting = rest ∧ ((tmuResultOp n d).tmuOf n).start = (d.tmuOf n).start := by
  have hop : tmuResultOp n d = tmuSettle n (tmuNoStop n m (d.setTmu n { d.tmuOf n with converting := rest })) := by
    simp only [tmuResultOp, hc, tmuConverted, if_pos hs]
  rw [hop]
  refine ⟨?_, tmuState_tmuSettle .., ?_, ?_⟩
  · refine (tmuNoStop_reported (d.setTmu n { d.tmuOf n with converting := rest }) (by omega) ?_).settle
    simpa using hm
  · simp
  · simp

end Sys2Proof.Machine.Device
end

section
/-!
PROOFS. Timeout and end of the range of an interval measurement (R111).
-/
namespace Sys2Proof.Proofs
open Sys2Proof.Machine Sys2Proof.Machine.Device

/-- While the part runs, a command whose effect leaves the block as it is leaves the state as it is. -/
theorem nextDev_unchanged {s : State} {d : Device} (h : s.running) (hd : d = s.dev) : nextDev s d = .next s := by
  subst hd
  exact nextDev_next h rfl

/-- Settles O27: `tmuExpire_over` and `tmuExpire_before` on both sides of the timeout and of the end of the range, and
`tmuResultOp_noStop` for a result that waits behind others. -/
theorem tmuTimeoutAndOverrange : Obligations.TmuTimeoutAndOverrange := by
  unfold Obligations.TmuTimeoutAndOverrange
  intro st n hr
  refine ⟨fun b hm hb => ⟨fun hl hc => ?_, fun hc => ?_, fun hc => ?_, fun hc => ?_⟩, fun m rest hcv hs hm => ?_⟩
  · exact ⟨_, nextDev_running hr _, rfl, tmuExpire_over hm hb hl hc (by decide)⟩
  · exact nextDev_unchanged hr (tmuExpire_before hb hc)
  · exact ⟨_, nextDev_running hr _, rfl, tmuExpire_over hm hb (by decide) hc (by decide)⟩
  · exact nextDev_unchanged hr (tmuExpire_before hb (.inr hc))
  · obtain ⟨hrep, hshows, hrest, hstart⟩ := tmuResultOp_noStop hcv hs (Nat.lt_of_le_of_lt hm (by decide))
    exact ⟨_, nextDev_running hr _, rfl, hrep, hshows, hrest, hstart⟩

end Sys2Proof.Proofs
end

section
/-!
SUPPORT. The target state of a tile: what settling shows of it (R371), how deep it is (R369, R370, R372), and what the write of a
latency tolerance leaves alone.
-/
namespace Sys2Proof.Machine.Device

variable (d : Device)

/-! ## How deep the target is -/

/-- No tolerance allows more than DORMANT (R369). -/
theorem toleranceState_le_dormant (tol : Nat) : toleranceState tol ≤ 5 := by
  unfold toleranceState
  split_ifs <;> decide

/-- With no condition the floor is DORMANT (R370). -/
@[simp] theorem floorOf_none : floorOf 0 = 5 := by decide

/-- Unless the tile is throttled, its target is no deeper than its tolerance allows, whatever its floor (R371). -/
theorem targetState_le_toleranceState {t : Nat} (h : d.throttled t = false) (floor : Nat) :
    d.targetState t floor ≤ toleranceState (d.o (0x1320 + t) 0x01) := by
  simp only [targetState, h, Bool.false_eq_true, if_false, Bool.and_eq_true, beq_iff_eq]
  split
  · omega
  · exact Nat.min_le_left ..

/-- A tile that nothing holds up is to be in the state that its tolerance allows (R371). -/
theorem targetState_eq_toleranceState {t : Nat} (h : d.throttled t = false) (hd : d.dormantHeld t = false) :
    d.targetState t 5 = toleranceState (d.o (0x1320 + t) 0x01) := by
  simp only [targetState, h, hd, Bool.false_eq_true, if_false, Bool.false_and]
  exact Nat.min_eq_left (toleranceState_le_dormant _)

/-! ## What settling shows -/

theorem beginShortRetrain_o_ne (k : Nat) {ix sub : Nat} (h : okey ix sub ≠ okey (0x1610 + k) 0x03) :
    (beginShortRetrain k d).o ix sub = d.o ix sub := by
  unfold beginShortRetrain
  split
  · exact o_w_ne d h 2
  · rfl

/-- A move that begins leaves the target as it reads. -/
theorem beginMove_target {t : Nat} (ht : t < 8) (v : Nat) : (beginMove t v d).o (0x1320 + t) 0x03 = d.o (0x1320 + t) 0x03 := by
  have hchan (k : Nat) : okey (0x1320 + t) 0x03 ≠ okey (0x1610 + k) 0x03 := by simp only [okey]; omega
  have hmove : okey (0x1320 + t) 0x03 ≠ okey (0x1320 + t) 0x08 := by simp only [okey]; omega
  unfold beginMove
  dsimp only
  split
  · simp only [each]
    rw [beginShortRetrain_o_ne _ _ (hchan _), beginShortRetrain_o_ne _ _ (hchan _), o_w_ne _ hmove]
    rfl
  · rw [o_w_ne _ hmove]
    rfl

/-- A tile that is settled shows the target that follows from its floor (R371). -/
theorem settleTile_target {t : Nat} (ht : t < 8) :
    (settleTile t d).o (0x1320 + t) 0x03 = d.targetState t (floorOf (d.floorConditions t)) := by
  unfold settleTile settleBy
  dsimp only
  split
  · exact o_w ..
  · exact (beginMove_target _ ht _).trans (o_w ..)

/-- Settling a tile leaves its tolerance as it reads. -/
theorem settleTile_tolerance (t : Nat) : (settleTile t d).o (0x1320 + t) 0x01 = d.o (0x1320 + t) 0x01 := by
  refine (settleTile_settled (ks := []) (List.mem_singleton.2 rfl)).2 _ ?_
  simp only [List.nil_append, List.flatMap_singleton, settleKeys, okey, List.mem_cons, List.not_mem_nil, or_false]
  omega

/-! ## What the write of a tolerance leaves alone -/

section Written
variable {t : Nat} (ht : t < 8) (v : Nat)
include ht

/-- Every object beyond those of the power states reads as before. -/
theorem o_w_tolerance {ix sub : Nat} (h : 0x1328 ≤ ix) (hs : sub < 256) : (d.w (0x1320 + t) 0x01 v).o ix sub = d.o ix sub :=
  o_w_ne d (fun e => by have := okey_inj hs (by decide) e; omega) v

omit ht in
theorem act_w_tolerance {ix sub : Nat} (hs : sub < 0x80) : (d.w (0x1320 + t) 0x01 v).act ix sub = d.act ix sub :=
  get_put_ne d (by simp only [akey, okey]; omega) v

omit ht in
theorem throttled_w_tolerance (u : Nat) : (d.w (0x1320 + t) 0x01 v).throttled u = d.throttled u := by
  have hne : okey (0x1310 + u) 0x0B ≠ okey (0x1320 + t) 0x01 := fun e => absurd (okey_inj (by decide) (by decide) e).2 (by decide)
  simp only [throttled, o_w_ne d hne]

theorem siteKeepsActive_w_tolerance (u : Nat) : (d.w (0x1320 + t) 0x01 v).siteKeepsActive u = d.siteKeepsActive u := by
  funext s
  simp (disch := omega) only [siteKeepsActive, siteState, siteIx, flowOf, w_sites, throttled_w_tolerance, o_w_tolerance]

theorem calCauses_w_tolerance (u : Nat) : (d.w (0x1320 + t) 0x01 v).calCauses u = d.calCauses u := by
  simp (disch := omega) only [calCauses, calOf, w_power, o_w_tolerance]

theorem acqArmed_w_tolerance (c : Nat) : (d.w (0x1320 + t) 0x01 v).acqArmed c = d.acqArmed c := by
  have hc : 0x1328 ≤ clusterIx c := by simp only [clusterIx]; omega
  simp only [acqArmed, o_w_tolerance d ht v hc (by decide : 0x60 < 256)]

theorem headEnabled_w_tolerance (h : Nat) : (d.w (0x1320 + t) 0x01 v).headEnabled h = d.headEnabled h := by
  simp (disch := omega) only [headEnabled, o_w_tolerance]

/-- The floor conditions of a tile do not depend on its tolerance (R370). -/
theorem floorConditions_w_tolerance (u : Nat) : (d.w (0x1320 + t) 0x01 v).floorConditions u = d.floorConditions u := by
  have hchan (n : Nat) : (d.w (0x1320 + t) 0x01 v).o (chanIx n) 0x2B = d.o (chanIx n) 0x2B :=
    o_w_tolerance d ht v (by simp only [chanIx]; omega) (by decide)
  simp (disch := omega) only [floorConditions, siteKeepsActive_w_tolerance, calCauses_w_tolerance, acqArmed_w_tolerance,
    headEnabled_w_tolerance, headTile, act_w_tolerance, hchan, tileGranted, w_mem, o_w_tolerance,
    List.any_eq_true, Bool.and_eq_true, decide_eq_true_eq]

end Written

/-! ## The write of a tolerance -/

/-- A tolerance that is written reads back. -/
theorem toleranceOp_reads (t v : Nat) : (toleranceOp t v d).o (0x1320 + t) 0x01 = v :=
  (settleTile_tolerance ..).trans (o_w ..)

/-- A write of a tolerance shows the target that follows from the floor conditions as they stand. -/
theorem toleranceOp_target {t : Nat} (ht : t < 8) (v : Nat) :
    (toleranceOp t v d).o (0x1320 + t) 0x03 = (d.w (0x1320 + t) 0x01 v).targetState t (floorOf (d.floorConditions t)) := by
  rw [toleranceOp, settleTile_target _ ht, floorConditions_w_tolerance d ht]

/-- Unless the tile is throttled, no floor lets its target be deeper than the written tolerance allows. -/
theorem toleranceOp_target_le {t : Nat} (ht : t < 8) (v : Nat) (h : d.throttled t = false) :
    (toleranceOp t v d).o (0x1320 + t) 0x03 ≤ toleranceState v := by
  have hle := targetState_le_toleranceState (d.w (0x1320 + t) 0x01 v) ((throttled_w_tolerance d v t).trans h)
    (floorOf (d.floorConditions t))
  rwa [o_w, ← toleranceOp_target d ht] at hle

/-- With nothing that holds the tile up its target is the state that the written tolerance allows. -/
theorem toleranceOp_target_eq {t : Nat} (ht : t < 8) (v : Nat) (hf : d.floorConditions t = 0) (h : d.throttled t = false)
    (hd : d.dormantHeld t = false) : (toleranceOp t v d).o (0x1320 + t) 0x03 = toleranceState v := by
  have heq := targetState_eq_toleranceState (d.w (0x1320 + t) 0x01 v) ((throttled_w_tolerance d v t).trans h) hd
  rw [toleranceOp_target d ht, hf, floorOf_none, heq, o_w]

/-- The write of a tolerance changes that object and what settling its tile changes, and nothing else. -/
theorem toleranceOp_settled (t v : Nat) : OnlySettled d (toleranceOp t v d) [okey (0x1320 + t) 0x01] [t] :=
  (OnlySettled.put (List.mem_append_left _ (List.mem_singleton.2 rfl)) v).trans (settleTile_settled (List.mem_singleton.2 rfl))

end Sys2Proof.Machine.Device
end

section
/-!
PROOFS. The latency tolerance of a tile and its target state (R369, R371).
-/
namespace Sys2Proof.Proofs
open Sys2Proof.Machine Sys2Proof.Machine.Device

/-- The steps of the tolerance, each with its last value (R369). -/
theorem toleranceState_steps (tol : Nat) :
    toleranceState tol = if tol = 0 then 0 else if tol = 1 then 1 else if tol ≤ 59 then 2 else if tol ≤ 1999 then 3
      else if tol ≤ 119999 then 4 else 5 := by
  simp only [toleranceState, ← Nat.lt_succ_iff]

/-- Settles O55: the write settles the tile, whose target is that of `targetState` with the floor as it stands
(`toleranceOp_target`); a throttled tile, which may go to DOZE beyond its tolerance (R381), is outside the bound. -/
theorem toleranceAllowsDeepestState : Obligations.ToleranceAllowsDeepestState := by
  unfold Obligations.ToleranceAllowsDeepestState
  refine ⟨by decide, fun st p k v hr hacc allowed hallowed => ?_⟩
  rw [← toleranceState_steps] at hallowed
  subst hallowed
  have hframe := toleranceOp_settled st.dev k v.toNat
  have hboot : (toleranceOp k v.toNat st.dev).boot = st.dev.boot := by rw [hframe.1]
  refine ⟨{ st with dev := toleranceOp k v.toNat st.dev }, ?_, rfl, toleranceOp_reads .., toleranceOp_target_le _ k.isLt _,
    toleranceOp_target_eq _ k.isLt _, hframe⟩
  rw [exec_latencyTolerance, execLatencyTolerance, hostWrite_accepts _ hacc]
  exact nextDev_next hr hboot

end Sys2Proof.Proofs
end
